-- ==== Sys2Proof/Word.lean ====
section
/-! DEFINITION. The word and byte types of ARX-CORE (00_scope.md R8, R12): unsigned, 32 and 8 bits. -/

namespace Sys2Proof

/-- `Word32` (00_scope.md R12): arithmetic wraps modulo 2^32. -/
abbrev Word := BitVec 32

/-- `Byte` (00_scope.md R12). -/
abbrev Byte := BitVec 8

/-- Sixteen words: the internal state S, the working state X, the keystream words KW, DIN or DOUT
(00_scope.md R8, "16 words (512 bits)"). -/
abbrev Block := Vector Word 16

end Sys2Proof
end

