-- ==== Sys2Proof/Config.lean ====
section
/-! DEFINITION. The named parameters of ARX-CORE, with the values the spec fixes for them, and the free values
of what the spec leaves unspecified (93_implementation_defined.md sections 1 and 2). -/

namespace Sys2Proof.Config

/-- Which 256-byte page of the platform's address space the window is. The platform chooses it (20_memory.md R60,
93_implementation_defined.md section 2): a parameter without a value. Safe; log 1. -/
opaque basePage : Nat

/-- BASE, the base address of the register window (20_memory.md R60): aligned to 256 bytes. -/
def BASE : Nat := 0x100 * basePage

/-- CONST32, "expand 32-byte k" (00_scope.md R10, 41_init.md R154).
UNVERIFIED: the spec marks the values as general knowledge (D11). Unsafe if another set is built in; log 8. -/
def const32 : Vector Word 4 := #v[0x61707865, 0x3320646e, 0x79622d32, 0x6b206574]

/-- CONST16, "expand 16-byte k" (00_scope.md R10, 41_init.md R154). UNVERIFIED, unsafe; log 8. -/
def const16 : Vector Word 4 := #v[0x61707865, 0x3120646e, 0x79622d36, 0x6b206574]

/-- The constant set an engine uses (41_init.md R154): CONST32 for a 32-byte key, CONST16 for a 16-byte key. -/
def constants (key256 : Bool) : Vector Word 4 := if key256 then const32 else const16

/-- KEY16_FILL (41_init.md R158): what a 16-byte key puts into key slots 4 to 7: its four words again.
UNVERIFIED (D14), unsafe; log 8. -/
def key16Fill (k : Vector Word 4) : Vector Word 4 := k

/-- What a slot of the internal state holds (41_init.md R157). -/
inductive SlotContent where
  | const (i : Fin 4)
  | key (i : Fin 8)
  | ctrLo
  | ctrHi
  | iv (i : Fin 2)
deriving DecidableEq, Repr

/-- LAYOUT, the slot table of 41_init.md R157: constants, key, counter low, counter high, IV. -/
def layout : Vector SlotContent 16 :=
  #v[.const 0, .const 1, .const 2, .const 3,
     .key 0, .key 1, .key 2, .key 3, .key 4, .key 5, .key 6, .key 7,
     .ctrLo, .ctrHi, .iv 0, .iv 1]

/-- The value the n-th draw gives: a read of DOUT, CTR_LO or CTR_HI while BUSY = 1
(70_reset_and_hazards.md R254, "a draw, free on every read, under no law"). Safe; log 4. -/
opaque drawWord : Nat → Word

/-- The working state X after the n-th draw (10_state.md R44, "Its value outside a PROCESS command is
unspecified"). Safe; log 3. -/
opaque freeX : Nat → Block

/-- The keystream words KW outside BLK_FEED to BLK_COMBINE, after the n-th draw. Safe; log 3. -/
opaque freeKW : Nat → Block

/-- CMDL when idle, after the n-th draw (93_implementation_defined.md section 2, "any value"). Safe; log 3. -/
opaque freeCMDL : Nat → Word

/-- DRI when idle, after the n-th draw. Safe; log 3. -/
opaque freeDRI : Nat → Fin 128

/-- QRI when idle, after the n-th draw. Safe; log 3. -/
opaque freeQRI : Nat → Fin 8

end Sys2Proof.Config
end

