-- ==== Sys2Proof/Machine/Datapath.lean ====
section
/-! DEFINITION. The datapath (40_datapath.md): adder, rotator, XOR, quarter-round and its pipeline stages, passes,
round loop, feed-forward, serializer and combiner; the counter increment (43_counter.md R192). -/

namespace Sys2Proof.Machine

/-- `add32` (R120): the carry out of bit 31 is discarded. -/
def add32 (a b : Word) : Word := BitVec.ofNat 32 ((a.toNat + b.toNat) % 2 ^ 32)

/-- `rotl32` (R121): the shifts discard what leaves the word. -/
def rotl32 (v : Word) (n : Nat) : Word := (v <<< n) ||| (v >>> (32 - n))

/-- `xor32` (R123). -/
def xor32 (a b : Word) : Word := a ^^^ b

/-- The four words a quarter-round works on. -/
structure Quad where
  a : Word
  b : Word
  c : Word
  d : Word
deriving DecidableEq, Repr

/-- `QR` (R122), line by line. -/
def qr (q : Quad) : Quad :=
  let a1 := add32 q.a q.b
  let d1 := rotl32 (xor32 q.d a1) 16
  let c1 := add32 q.c d1
  let b1 := rotl32 (xor32 q.b c1) 12
  let a2 := add32 a1 b1
  let d2 := rotl32 (xor32 d1 a2) 8
  let c2 := add32 c1 d2
  let b2 := rotl32 (xor32 b1 c2) 7
  ⟨a2, b2, c2, d2⟩

/-- Pipeline stage QS1 (R124): every stage passes all four words on. -/
def qs1 (q : Quad) : Quad :=
  let a1 := add32 q.a q.b
  { q with a := a1, d := rotl32 (xor32 q.d a1) 16 }

/-- Pipeline stage QS2 (R124). -/
def qs2 (q : Quad) : Quad :=
  let c1 := add32 q.c q.d
  { q with c := c1, b := rotl32 (xor32 q.b c1) 12 }

/-- Pipeline stage QS3 (R124). -/
def qs3 (q : Quad) : Quad :=
  let a2 := add32 q.a q.b
  { q with a := a2, d := rotl32 (xor32 q.d a2) 8 }

/-- Pipeline stage QS4 (R124). -/
def qs4 (q : Quad) : Quad :=
  let c2 := add32 q.c q.d
  { q with c := c2, b := rotl32 (xor32 q.b c2) 7 }

/-- The four indices a quarter-round is applied at (R125). -/
structure Lanes where
  i : Fin 16
  j : Fin 16
  k : Fin 16
  l : Fin 16
deriving DecidableEq, Repr

/-- All four inputs, read before any output is written (R125). -/
def Lanes.read (n : Lanes) (x : Block) : Quad := ⟨x[n.i], x[n.j], x[n.k], x[n.l]⟩

/-- The four outputs written back (R125). -/
def Lanes.write (n : Lanes) (x : Block) (q : Quad) : Block :=
  (((x.set n.i q.a).set n.j q.b).set n.k q.c).set n.l q.d

/-- `QRAPPLY` (R125). -/
def qrApply (x : Block) (n : Lanes) : Block := n.write x (qr (n.read x))

/-- The index sets of the column pass (R127), in the order listed. -/
def columnLanes : Vector Lanes 4 := #v[⟨0, 4, 8, 12⟩, ⟨1, 5, 9, 13⟩, ⟨2, 6, 10, 14⟩, ⟨3, 7, 11, 15⟩]

/-- The index sets of the diagonal pass (R128), in the order listed. -/
def diagonalLanes : Vector Lanes 4 := #v[⟨0, 5, 10, 15⟩, ⟨1, 6, 11, 12⟩, ⟨2, 7, 8, 13⟩, ⟨3, 4, 9, 14⟩]

/-- A pass: the quarter-round at each index set, one after the other. -/
def applyLanes (ns : List Lanes) (x : Block) : Block := ns.foldl qrApply x

/-- `COLPASS` (R127). -/
def colPass (x : Block) : Block := applyLanes columnLanes.toList x

/-- `DIAGPASS` (R128). -/
def diagPass (x : Block) : Block := applyLanes diagonalLanes.toList x

/-- `DOUBLEROUND` (R129): the column pass first. -/
def doubleRound (x : Block) : Block := diagPass (colPass x)

/-- n double-rounds in a row (R130, step 2). -/
def doubleRounds : Nat → Block → Block
  | 0, x => x
  | n + 1, x => doubleRounds n (doubleRound x)

/-- `PERMUTE` (R130): R/2 double-rounds on a copy of S. -/
def permute (s : Block) (r : BitVec 8) : Block := doubleRounds (r.toNat / 2) s

/-- `FEEDFWD` (R131): word by word, carries do not pass between words. -/
def feedFwd (x s : Block) : Block := Vector.ofFn fun i => add32 x[i] s[i]

/-- `BLOCKFN` (R136). -/
def blockFn (s : Block) (r : BitVec 8) : Block := feedFwd (permute s r) s

/-- Lane `i` of a word, bits [8i+7:8i] (20_memory.md R62). -/
def laneByte (w : Word) (i : Fin 4) : Byte := w.extractLsb' (8 * i.val) 8

/-- `le_bytes` (00_scope.md R14). -/
def leBytes (w : Word) : Vector Byte 4 := Vector.ofFn (laneByte w)

/-- `le_word` (00_scope.md R14): b0 | b1<<8 | b2<<16 | b3<<24. -/
def leWord (b : Vector Byte 4) : Word :=
  (b[0].setWidth 32) ||| (b[1].setWidth 32 <<< 8) ||| (b[2].setWidth 32 <<< 16) ||| (b[3].setWidth 32 <<< 24)

/-- The word that holds byte `j` of a 64-byte block: j div 4. -/
def wordOfByte (j : Fin 64) : Fin 16 := ⟨j.val / 4, by omega⟩

/-- The lane byte `j` sits in: j mod 4. -/
def laneOfByte (j : Fin 64) : Fin 4 := ⟨j.val % 4, by omega⟩

/-- `SERIALIZE` (R132): KS[4w + i] = KW[w][8i+7:8i]. -/
def serialize (kw : Block) : Vector Byte 64 := Vector.ofFn fun j => laneByte kw[wordOfByte j] (laneOfByte j)

/-- `COMBINE` (R133): OUT[i] = IN[i] ^ KS[i]. -/
def combine (input ks : Vector Byte 64) : Vector Byte 64 := Vector.ofFn fun i => input[i] ^^^ ks[i]

/-- Bytes 4w to 4w+3 of a block packed little-endian into word w (42_process.md R173, step 5). -/
def packWords (b : Vector Byte 64) : Block :=
  Vector.ofFn fun w => leWord #v[b[4 * w.val], b[4 * w.val + 1], b[4 * w.val + 2], b[4 * w.val + 3]]

/-- The word form of the combiner (R133, 70_reset_and_hazards.md R256 BLK_COMBINE). -/
def combineWords (din kw : Block) : Block := Vector.ofFn fun w => xor32 din[w] kw[w]

/-- `inc64(hi, lo)` (43_counter.md R192), the pair (hi', lo'). -/
def inc64 (hi lo : Word) : Word × Word :=
  let lo' := add32 lo 1
  (if lo' = 0 then add32 hi 1 else hi, lo')

end Sys2Proof.Machine
end

