-- ==== Sys2Proof/Syntax.lean ====
section
/-! DEFINITION. What can be written: the commands of opcode_table.json, the registers and accesses of the register
window, and the host assembly of 30_encoding.md R99 to R101. -/

namespace Sys2Proof

/-- A command, one constructor per row of opcode_table.json (30_encoding.md R92, R96). -/
inductive Instr where
  /-- `INIT`, word 0x00000001 (41_init.md R150). -/
  | init
  /-- `PROCESS`, word 0x0000LL02, with `blen = zext_32(LL)` (30_encoding.md R93, R96; 42_process.md R170). -/
  | process (blen : Word)
  /-- `SETCTR`, word 0x00000003 (43_counter.md R195). -/
  | setctr
deriving DecidableEq, Repr

/-- A register of the window, by name (20_memory.md R61). -/
inductive Reg where
  | CMD
  | STATUS
  | CONFIG
  | KEY (k : Fin 8)
  | IV (k : Fin 2)
  | CTRIN_LO
  | CTRIN_HI
  | CTR_LO
  | CTR_HI
  | DIN (k : Fin 16)
  | DOUT (k : Fin 16)
deriving DecidableEq, Repr

/-- The shape of one bus access: its byte offset from BASE, its width in bytes and its byte enables
(20_memory.md R66 to R68). Any shape can be put on the bus. Offsets of 256 and above lie outside the window (R69). -/
structure Access where
  off   : Nat
  bytes : Nat
  lanes : BitVec 4
deriving DecidableEq, Repr

/-- One bus transaction of the host, at an offset from BASE (20_memory.md R66, R67; 30_encoding.md R99). -/
inductive Transaction where
  | read (a : Access)
  | write (a : Access) (v : Word)
deriving DecidableEq, Repr

/-- The shape of an access as the platform's bus carries it: at an address, which may lie anywhere (20_memory.md R60,
R69, R74; log 1). -/
structure BusAccess where
  addr  : Nat
  bytes : Nat
  lanes : BitVec 4
deriving DecidableEq, Repr

/-- One bus transaction of the host, at an address (20_memory.md R60; `MemRead(BASE + off, 4)` of R66 and
`MemWrite(BASE + off, 4, v)` of R67). -/
inductive BusCycle where
  | read (b : BusAccess)
  | write (b : BusAccess) (v : Word)
deriving DecidableEq, Repr

/-- A statement of the host assembly (30_encoding.md R100). A label is a number; `tN` is temporary N. -/
inductive HostStmt where
  | wr (r : Reg) (imm : Word)
  | rd (r : Reg) (t : Nat)
  | beq (t : Nat) (mask value : Word) (label : Nat)
  | bne (t : Nat) (mask value : Word) (label : Nat)
  | halt
deriving DecidableEq, Repr

/-- One line of a host program: the statement and the labels defined in front of it (30_encoding.md R100). -/
structure HostLine where
  labels : List Nat
  stmt   : HostStmt
deriving DecidableEq, Repr

end Sys2Proof
end

