-- ==== Sys2Proof/Machine/State.lean ====
section
/-! DEFINITION. All the state the spec gives ARX-CORE (10_state.md), the HOST agent and the schedule (00_scope.md R18),
as plain data; the reasons a step can stop; and the state after reset (10_state.md R50). -/

namespace Sys2Proof.Machine

/-- STATUS.ERR (10_state.md R28, 60_exceptions.md R212). Codes 7 to 15 are never produced (R229), so have no name. -/
inductive ErrCode where
  | NONE
  | INVALID_KEY_LENGTH
  | INVALID_IV_LENGTH
  | INVALID_ROUND_COUNT
  | INVALID_BLOCK_LENGTH
  | NOT_INITIALIZED
  | ILLEGAL_COMMAND
deriving DecidableEq, Repr

/-- The states of the command FSM (10_state.md R46, 70_reset_and_hazards.md R256). -/
inductive Fsm where
  | IDLE
  | DECODE
  | INIT_LOAD
  | BLK_COPY
  | BLK_ROUND
  | BLK_FEED
  | BLK_COMBINE
  | CINC_LO
  | CINC_HI
  | SETC
  | FINISH
deriving DecidableEq, Repr

/-- What a successful INIT stages: S', RND' and K256' (70_reset_and_hazards.md R256, INIT_LOAD). -/
structure EngineImage where
  S    : Block
  RND  : BitVec 8
  K256 : Bool
deriving DecidableEq, Repr

/-- The results a command holds internally until FINISH (70_reset_and_hazards.md R256, R257): the pending code, and
what will be written, `none` where the command writes nothing there. -/
structure Staged where
  code   : ErrCode
  engine : Option EngineImage
  dout   : Option Block
  ctrLo  : Option Word
  ctrHi  : Option Word
deriving DecidableEq, Repr

/-- Nothing staged and no error pending. -/
def Staged.nothing : Staged := ⟨.NONE, none, none, none, none⟩

/-- A failed check: only a code is pending (R257, "On a failed check nothing is staged"). -/
def Staged.failed (e : ErrCode) : Staged := { Staged.nothing with code := e }

/-- The bus response of a transaction (20_memory.md R66, R67; 60_exceptions.md R214). -/
inductive Response where
  | okay
  | busError (off : Nat)
deriving DecidableEq, Repr

/-- One entry of a run's observation (00_scope.md R19): the response of a read with the data returned, or of a write. -/
inductive Reply where
  | read (off : Nat) (response : Response) (data : Word)
  | write (off : Nat) (response : Response)
deriving DecidableEq, Repr

/-- How the CORE takes a step (70_reset_and_hazards.md R256: "An implementation may merge, split or pipeline these
states"). DEDUCED, safe; log 6. -/
inductive CoreMove where
  /-- One state of the reference FSM. -/
  | tick
  /-- All states from here to FINISH, merged into one step. -/
  | run
  /-- A core step of an implementation that splits a state: nothing the rules name changes yet. -/
  | stall
deriving DecidableEq, Repr

/-- Which agent moves (00_scope.md R18), and with what. -/
inductive Turn where
  /-- HOST: this transaction, at an offset from BASE. -/
  | bus (t : Transaction)
  /-- HOST: this transaction, at an address (20_memory.md R60). -/
  | cycle (c : BusCycle)
  /-- HOST: the next statement of the host program. -/
  | program
  /-- CORE. -/
  | core (m : CoreMove)
  /-- RESET (70_reset_and_hazards.md R250). -/
  | reset
deriving DecidableEq, Repr

/-- The HOST agent running a program (30_encoding.md R99, R100). `temps` lists the temporaries that are not 0 by
rising number (log 11). -/
structure HostAgent where
  program : List HostLine
  line    : Nat
  temps   : List (Nat × Word)
  halted  : Bool
deriving DecidableEq, Repr

/-- The state. Register names are the spec's. CMD, STATUS, CTR_LO and CTR_HI hold nothing of their own: they are read
through `State.readReg` (10_state.md R32, R23, R36). -/
structure State where
  /-- CONFIG (R21); bits [31:24] are 0 (`State.Inv`). -/
  CONFIG   : Word
  KEY      : Vector Word 8
  IV       : Vector Word 2
  CTRIN_LO : Word
  CTRIN_HI : Word
  DIN      : Block
  DOUT     : Block
  /-- STATUS.DVALID (R26). -/
  DVALID   : Bool
  /-- STATUS.BWERR (R27). -/
  BWERR    : Bool
  /-- STATUS.ERR (R28). -/
  ERR      : ErrCode
  /-- The internal state S[0..15] (R39); S[12] and S[13] are the block counter. -/
  S        : Block
  /-- The latched round count (R41). -/
  RND      : BitVec 8
  INITD    : Bool
  K256     : Bool
  /-- The command FSM (R46); STATUS.BUSY is `FSM ≠ IDLE` (R24). -/
  FSM      : Fsm
  /-- The latched command word (R46). -/
  CMDL     : Word
  /-- The double-round index (R46). -/
  DRI      : Fin 128
  /-- The quarter-round index (R46). -/
  QRI      : Fin 8
  /-- The working state X[0..15] (R44). -/
  X        : Block
  /-- The keystream words of BLK_FEED (40_datapath.md R131). -/
  KW       : Block
  staged   : Staged
  /-- The HOST agent (00_scope.md R18). -/
  host     : HostAgent
  /-- What the host has observed so far, oldest first (00_scope.md R19). -/
  replies  : List Reply
  /-- The agents' coming turns, the next first (00_scope.md R18; log 5). -/
  turns    : List Turn
  /-- The model's own: how many unspecified values have been drawn (log 4). -/
  draws    : Nat
deriving DecidableEq, Repr

/-- Why a step stops with a fault: it never does. The core has no runtime failure (60_exceptions.md R230), never hangs
(70_reset_and_hazards.md R258), and a bus error is a response, not a stop (R214, R215). -/
inductive Fault where
deriving DecidableEq, Repr

/-- Why a step has no meaning. -/
inductive Refusal where
  /-- Raised only by an arm of `exec` whose instruction has no meaning yet; there is none. Safe: the model stops. -/
  | notModelled (mnemonic : String)
deriving DecidableEq, Repr

/-- A host without a program (log 11). -/
def HostAgent.idle : HostAgent := ⟨[], 0, [], false⟩

/-- The state right after reset (10_state.md R50). X, KW, CMDL, DRI and QRI are unspecified there; 0 is a
DESIGN CHOICE, unsafe only for claims about registers nothing can observe (log 2). No program and no turn is placed. -/
def State.reset : State where
  CONFIG   := 0x00080820
  KEY      := Vector.replicate 8 0
  IV       := Vector.replicate 2 0
  CTRIN_LO := 0
  CTRIN_HI := 0
  DIN      := Vector.replicate 16 0
  DOUT     := Vector.replicate 16 0
  DVALID   := false
  BWERR    := false
  ERR      := .NONE
  S        := Vector.replicate 16 0
  RND      := 0
  INITD    := false
  K256     := false
  FSM      := .IDLE
  CMDL     := 0
  DRI      := 0
  QRI      := 0
  X        := Vector.replicate 16 0
  KW       := Vector.replicate 16 0
  staged   := Staged.nothing
  host     := HostAgent.idle
  replies  := []
  turns    := []
  draws    := 0

end Sys2Proof.Machine
end

