-- ==== Sys2Proof/Machine/Flags.lean ====
section
/-! DEFINITION. The STATUS register as the host reads it (10_state.md R23 to R30). The core has no arithmetic flags
(R49): these are all the flags there are. -/

namespace Sys2Proof.Machine

/-- The number of an error code (60_exceptions.md R212). -/
def ErrCode.code : ErrCode → BitVec 4
  | .NONE => 0
  | .INVALID_KEY_LENGTH => 1
  | .INVALID_IV_LENGTH => 2
  | .INVALID_ROUND_COUNT => 3
  | .INVALID_BLOCK_LENGTH => 4
  | .NOT_INITIALIZED => 5
  | .ILLEGAL_COMMAND => 6

/-- STATUS.BUSY (10_state.md R24): 1 exactly when FSM is not IDLE. -/
def State.busy (s : State) : Bool := decide (s.FSM ≠ .IDLE)

/-- STATUS (10_state.md R23): reserved [31:17], KEY256 [16], ROUNDS_ACT [15:8], ERR [7:4], BWERR [3], DVALID [2],
INITD [1], BUSY [0]. -/
def State.statusWord (s : State) : Word :=
  (0 : BitVec 15) ++ BitVec.ofBool s.K256 ++ s.RND ++ s.ERR.code ++ BitVec.ofBool s.BWERR ++
    BitVec.ofBool s.DVALID ++ BitVec.ofBool s.INITD ++ BitVec.ofBool s.busy

end Sys2Proof.Machine
end

