-- ==== Sys2Proof/Machine/Operands.lean ====
section
/-! DEFINITION. Where the commands' operands come from (30_encoding.md R97), the byte views of the data banks
(20_memory.md R62, R63), the block counter, and the map and reading of the register window (20_memory.md R61, R68, R69). -/

namespace Sys2Proof.Machine

/-- `klen = zext_32(CONFIG[7:0])` (30_encoding.md R97). -/
def State.klen (s : State) : Word := (s.CONFIG.extractLsb' 0 8).setWidth 32

/-- `ivlen = zext_32(CONFIG[15:8])` (30_encoding.md R97). -/
def State.ivlen (s : State) : Word := (s.CONFIG.extractLsb' 8 8).setWidth 32

/-- `rounds = zext_32(CONFIG[23:16])` (30_encoding.md R97). -/
def State.rounds (s : State) : Word := (s.CONFIG.extractLsb' 16 8).setWidth 32

/-- Key byte j, lane j mod 4 of KEY(j div 4) (10_state.md R33). -/
def State.keyByte (s : State) (j : Fin 32) : Byte :=
  laneByte (s.KEY[j.val / 4]'(by omega)) ⟨j.val % 4, by omega⟩

/-- IV byte j, lane j mod 4 of IV(j div 4) (10_state.md R34). -/
def State.ivByte (s : State) (j : Fin 8) : Byte :=
  laneByte (s.IV[j.val / 4]'(by omega)) ⟨j.val % 4, by omega⟩

/-- The input block IN[0..63]: byte j is lane j mod 4 of DIN(j div 4) (10_state.md R37). -/
def State.inputBlock (s : State) : Vector Byte 64 := serialize s.DIN

/-- The output block: byte j is lane j mod 4 of DOUT(j div 4) (10_state.md R38). -/
def State.outputBlock (s : State) : Vector Byte 64 := serialize s.DOUT

/-- The block counter CTR = {S[13], S[12]} (43_counter.md R190). -/
def State.counter (s : State) : BitVec 64 := s.S[13] ++ s.S[12]

/-- The byte offset of a register (20_memory.md R61). -/
def regOffset : Reg → Nat
  | .CMD => 0x00
  | .STATUS => 0x04
  | .CONFIG => 0x08
  | .KEY k => 0x10 + 4 * k.val
  | .IV k => 0x30 + 4 * k.val
  | .CTRIN_LO => 0x38
  | .CTRIN_HI => 0x3C
  | .CTR_LO => 0x40
  | .CTR_HI => 0x44
  | .DIN k => 0x80 + 4 * k.val
  | .DOUT k => 0xC0 + 4 * k.val

/-- The register at a 4-byte-aligned offset of the window (20_memory.md R61); `none` at the reserved offsets 0x0C and
0x48 to 0x7C (R69). -/
def regAt (off : Nat) : Option Reg :=
  if off = 0x00 then some .CMD
  else if off = 0x04 then some .STATUS
  else if off = 0x08 then some .CONFIG
  else if off = 0x0C then none
  else if off < 0x30 then some (.KEY (Fin.ofNat 8 ((off - 0x10) / 4)))
  else if off < 0x38 then some (.IV (Fin.ofNat 2 ((off - 0x30) / 4)))
  else if off = 0x38 then some .CTRIN_LO
  else if off = 0x3C then some .CTRIN_HI
  else if off = 0x40 then some .CTR_LO
  else if off = 0x44 then some .CTR_HI
  else if off < 0x80 then none
  else if off < 0xC0 then some (.DIN (Fin.ofNat 16 ((off - 0x80) / 4)))
  else if off < 0x100 then some (.DOUT (Fin.ofNat 16 ((off - 0xC0) / 4)))
  else none

/-- DOUT0-15, CTR_LO and CTR_HI: the read-only registers (20_memory.md R70) that hold results, read as draws while
BUSY = 1 (70_reset_and_hazards.md R254). -/
def isResultReg : Reg → Bool
  | .CTR_LO => true
  | .CTR_HI => true
  | .DOUT _ => true
  | .CMD => false
  | .STATUS => false
  | .CONFIG => false
  | .KEY _ => false
  | .IV _ => false
  | .CTRIN_LO => false
  | .CTRIN_HI => false
  | .DIN _ => false

/-- The current value of a register as a read returns it (10_state.md R21 to R38); CMD reads 0 (R32). -/
def State.readReg (s : State) : Reg → Word
  | .CMD => 0
  | .STATUS => s.statusWord
  | .CONFIG => s.CONFIG
  | .KEY k => s.KEY[k]
  | .IV k => s.IV[k]
  | .CTRIN_LO => s.CTRIN_LO
  | .CTRIN_HI => s.CTRIN_HI
  | .CTR_LO => s.S[12]
  | .CTR_HI => s.S[13]
  | .DIN k => s.DIN[k]
  | .DOUT k => s.DOUT[k]

/-- Byte offset 4k + i of the window names bits [8i+7:8i] of the register at 4k (20_memory.md R62). -/
def State.windowByte (s : State) (off : Nat) : Option Byte :=
  (regAt (4 * (off / 4))).map fun r => laneByte (s.readReg r) ⟨off % 4, by omega⟩

/-- The access lies in the window at all; the core does not see any other (20_memory.md R69). -/
def inWindow (a : Access) : Bool := decide (a.off < 0x100)

/-- The access at BASE + off that an access at an address is; an address below BASE has no offset (20_memory.md R60). -/
def atOffset (b : BusAccess) : Option Access :=
  if Config.BASE ≤ b.addr then some ⟨b.addr - Config.BASE, b.bytes, b.lanes⟩ else none

/-- The access at an address that an access at BASE + off is (20_memory.md R60, R66). -/
def atAddress (a : Access) : BusAccess := ⟨Config.BASE + a.off, a.bytes, a.lanes⟩

/-- A single aligned 32-bit transfer with all four byte lanes enabled (20_memory.md R68). -/
def isWordAccess (a : Access) : Bool := decide (a.off % 4 = 0 ∧ a.bytes = 4 ∧ a.lanes = 0xF)

/-- The access a host assembly statement makes: the whole register (30_encoding.md R99, R100). -/
def wordAccess (r : Reg) : Access := ⟨regOffset r, 4, 0xF⟩

end Sys2Proof.Machine
end

