-- ==== Sys2Proof/Machine/Ops.lean ====
section
/-! DEFINITION. The named operations every step is made of: accepting a command, completing it (with results or with an
error, the core's only "exception", 60_exceptions.md R211), dropping a write, storing to an input register, and reset. -/

namespace Sys2Proof.Machine

/-- Command acceptance (70_reset_and_hazards.md R251). -/
def State.accept (s : State) (v : Word) : State :=
  { s with CMDL := v, FSM := .DECODE, DVALID := false, ERR := .NONE }

/-- A write dropped because BUSY = 1 (70_reset_and_hazards.md R252, R253). -/
def State.dropWrite (s : State) : State := { s with BWERR := true }

/-- The core returns to IDLE. What it held internally is unspecified from here on (10_state.md R44, R46): free values
(log 3); nothing is staged any more. -/
def State.toIdle (s : State) : State :=
  { s with
    FSM := .IDLE
    CMDL := Config.freeCMDL s.draws
    DRI := Config.freeDRI s.draws
    QRI := Config.freeQRI s.draws
    X := Config.freeX s.draws
    KW := Config.freeKW s.draws
    staged := Staged.nothing
    draws := s.draws + 1 }

/-- S after the commit of staged results: the whole of it for INIT, the counter words for PROCESS and SETCTR
(70_reset_and_hazards.md R257). -/
def Staged.commitS (st : Staged) (s : Block) : Block :=
  let s1 := match st.engine with
    | some e => e.S
    | none => s
  let s2 := match st.ctrLo with
    | some lo => s1.set 12 lo
    | none => s1
  match st.ctrHi with
  | some hi => s2.set 13 hi
  | none => s2

/-- Completion, the FINISH step (70_reset_and_hazards.md R257): every staged result at once, ERR, and FSM to IDLE. -/
def State.commit (s : State) (st : Staged) : State :=
  { s.toIdle with
    S := st.commitS s.S
    RND := match st.engine with
      | some e => e.RND
      | none => s.RND
    K256 := match st.engine with
      | some e => e.K256
      | none => s.K256
    INITD := s.INITD || st.engine.isSome
    DOUT := match st.dout with
      | some d => d
      | none => s.DOUT
    DVALID := s.DVALID || st.dout.isSome
    ERR := st.code }

/-- `fail E` (60_exceptions.md R211): STATUS.ERR takes the code, FSM goes to IDLE, nothing else is written. -/
def State.fail (s : State) (e : ErrCode) : State := s.commit (Staged.failed e)

/-- How every command ends: with the code of its first failed check, or with its results
(70_reset_and_hazards.md R255, R257). -/
def State.complete (s : State) (check : ErrCode) (results : Staged) : State :=
  match check with
  | .NONE => s.commit results
  | e => s.fail e

/-- An accepted word that decodes to ILLEGAL (60_exceptions.md R213). -/
def State.completeIllegal (s : State) : State := s.fail .ILLEGAL_COMMAND

/-- A host write that is stored (20_memory.md R67, last two lines): CONFIG keeps bits [23:0] (10_state.md R22), the
data banks all 32 bits. The registers that are not stored to this way are left alone. -/
def State.writeInput (s : State) (r : Reg) (v : Word) : State :=
  match r with
  | .CONFIG => { s with CONFIG := v &&& 0x00FFFFFF }
  | .KEY k => { s with KEY := s.KEY.set k v }
  | .IV k => { s with IV := s.IV.set k v }
  | .CTRIN_LO => { s with CTRIN_LO := v }
  | .CTRIN_HI => { s with CTRIN_HI := v }
  | .DIN k => { s with DIN := s.DIN.set k v }
  | .CMD => s
  | .STATUS => s
  | .CTR_LO => s
  | .CTR_HI => s
  | .DOUT _ => s

/-- A host write to STATUS (10_state.md R31): bit 3 clears BWERR, the other bits are ignored. -/
def State.writeStatus (s : State) (v : Word) : State :=
  if v.getLsbD 3 then { s with BWERR := false } else s

/-- The RESET event (70_reset_and_hazards.md R250): every piece of the core's state takes its value after reset. The host,
what it has observed and the schedule are not the core's (log 10). -/
def State.applyReset (s : State) : State :=
  { State.reset with host := s.host, replies := s.replies, turns := s.turns, draws := s.draws }

end Sys2Proof.Machine
end

