-- ==== Sys2Proof/Machine/Counter.lean ====
section
/-! DEFINITION. SETCTR, the counter preset (43_counter.md R195 to R197). -/

namespace Sys2Proof.Machine

/-- The check of SETCTR (43_counter.md R196). -/
def State.setctrCheck (s : State) : ErrCode :=
  if s.INITD = false then .NOT_INITIALIZED else .NONE

/-- The results of a valid SETCTR (43_counter.md R197). -/
def State.setctrResults (s : State) : Staged :=
  { Staged.nothing with
    ctrLo := some s.CTRIN_LO
    ctrHi := some s.CTRIN_HI }

/-- SETCTR (43_counter.md R195), at the command's completion. -/
def execSetctr (s : State) : Host.Outcome State Fault Refusal :=
  .next (s.complete s.setctrCheck s.setctrResults)

end Sys2Proof.Machine
end

