-- ==== Sys2Proof/Machine/Init.lean ====
section
/-! DEFINITION. INIT, the state initializer (41_init.md). -/

namespace Sys2Proof.Machine

/-- The checks of INIT in their order (41_init.md R150 to R153, 60_exceptions.md R216). -/
def State.initCheck (s : State) : ErrCode :=
  if s.klen ≠ 16 ∧ s.klen ≠ 32 then .INVALID_KEY_LENGTH
  else if s.ivlen ≠ 8 then .INVALID_IV_LENGTH
  else if s.rounds.toNat < 2 ∨ s.rounds.getLsbD 0 = true then .INVALID_ROUND_COUNT
  else .NONE

/-- The eight key slots (41_init.md R155, R158): KEY0 to KEY7, or KEY0 to KEY3 and the fill. -/
def State.keySlots (s : State) : Vector Word 8 :=
  if s.klen = 32 then s.KEY
  else
    let k : Vector Word 4 := #v[s.KEY[0], s.KEY[1], s.KEY[2], s.KEY[3]]
    let fill := Config.key16Fill k
    #v[k[0], k[1], k[2], k[3], fill[0], fill[1], fill[2], fill[3]]

/-- What INIT puts into a slot (41_init.md R154 to R159): the counter starts at zero. -/
def State.slotValue (s : State) : Config.SlotContent → Word
  | .const i => (Config.constants (s.klen = 32))[i]
  | .key i => s.keySlots[i]
  | .ctrLo => 0
  | .ctrHi => 0
  | .iv i => s.IV[i]

/-- The results of a valid INIT (41_init.md R150, R157, R160). -/
def State.initResults (s : State) : Staged :=
  { Staged.nothing with
    engine := some
      { S := Config.layout.map s.slotValue
        RND := s.rounds.setWidth 8
        K256 := s.klen = 32 } }

/-- INIT (41_init.md R150), at the command's completion. -/
def execInit (s : State) : Host.Outcome State Fault Refusal :=
  .next (s.complete s.initCheck s.initResults)

end Sys2Proof.Machine
end

