-- ==== Sys2Proof/Machine/Process.lean ====
section
/-! DEFINITION. PROCESS, one 64-byte block (42_process.md). -/

namespace Sys2Proof.Machine

/-- The checks of PROCESS in their order (42_process.md R171, R172; 60_exceptions.md R216). -/
def State.processCheck (s : State) (blen : Word) : ErrCode :=
  if s.INITD = false then .NOT_INITIALIZED
  else if blen ≠ 64 then .INVALID_BLOCK_LENGTH
  else .NONE

/-- The results of a valid PROCESS (42_process.md R173): the permuted copy of S fed forward, serialized, combined with
the input block and packed into DOUT; then the counter increment. All of it uses the S the block started from. -/
def State.processResults (s : State) : Staged :=
  let kw := feedFwd (permute s.S s.RND) s.S
  let ks := serialize kw
  let out := combine s.inputBlock ks
  let ctr := inc64 s.S[13] s.S[12]
  { Staged.nothing with
    dout := some (packWords out)
    ctrLo := some ctr.2
    ctrHi := some ctr.1 }

/-- PROCESS (42_process.md R170, R173), at the command's completion. -/
def execProcess (blen : Word) (s : State) : Host.Outcome State Fault Refusal :=
  .next (s.complete (s.processCheck blen) s.processResults)

end Sys2Proof.Machine
end

