-- ==== Sys2Proof/Machine/Dispatch.lean ====
section
/-! DEFINITION. The command dispatch: one arm per command, one call of its meaning each. -/

namespace Sys2Proof.Machine

/-- What an accepted command does, from acceptance to completion (70_reset_and_hazards.md R258: acceptance and
completion as the only two steps have the observations of the whole sequence). -/
def exec (i : Instr) (s : State) : Host.Outcome State Fault Refusal :=
  match i with
  | .init => Sys2Proof.Machine.execInit s
  | .process blen => Sys2Proof.Machine.execProcess blen s
  | .setctr => Sys2Proof.Machine.execSetctr s

end Sys2Proof.Machine
end

