-- ==== Sys2Proof/WellFormed.lean ====
section
/-! DEFINITION. Which terms stand for something that can be written down: a command whose operand fits its field,
and a host program whose branches all have exactly one target. -/

namespace Sys2Proof

/-- The block length fits the 8-bit LEN field (30_encoding.md R91, R93); the other commands have no operand. -/
def Instr.wellFormed : Instr → Bool
  | .init => true
  | .process blen => decide (blen.toNat < 256)
  | .setctr => true

/-- The label a statement branches to. -/
def HostStmt.target : HostStmt → Option Nat
  | .wr _ _ => none
  | .rd _ _ => none
  | .beq _ _ _ label => some label
  | .bne _ _ _ label => some label
  | .halt => none

/-- All labels a program defines, in order. -/
def hostLabels (p : List HostLine) : List Nat := p.flatMap HostLine.labels

/-- No label is defined twice (30_encoding.md R100, "`label:` defines a label"). A step does not ask for it:
`Machine.labelLine` says where a branch to a label defined twice goes (log 11). -/
def hostLabelsUnique (p : List HostLine) : Bool := decide (hostLabels p).Nodup

/-- Every branch goes to a label of the program (30_encoding.md R100, "branch to label"). -/
def hostTargetsDefined (p : List HostLine) : Bool :=
  p.all fun line =>
    match line.stmt.target with
    | none => true
    | some label => (hostLabels p).contains label

/-- A host program that says where each of its branches goes. -/
def hostProgramWellFormed (p : List HostLine) : Bool := hostLabelsUnique p && hostTargetsDefined p

end Sys2Proof
end

