-- ==== Sys2Proof/Decode.lean ====
section
/-! DEFINITION. The command decoder (30_encoding.md R90 to R98), total on every 32-bit word and refusing by name, and
the encoder written from the same field table. -/

namespace Sys2Proof

/-- Why a word decodes to ILLEGAL (30_encoding.md R94 to R96). All three complete with ILLEGAL_COMMAND. -/
inductive IllegalWord where
  /-- RSV0 [7:4] or RSV1 [31:16] is not zero (R94). -/
  | reservedField
  /-- LEN [15:8] is not zero in an INIT or SETCTR word (R94). -/
  | lenNotZero
  /-- OP [3:0] is 0x0 or 0x4 to 0xF (R95). -/
  | noSuchOp
deriving DecidableEq, Repr

/-- `OP = C[3:0]` (30_encoding.md R91). -/
def fieldOP (c : Word) : BitVec 4 := c.extractLsb' 0 4

/-- `RSV0 = C[7:4]` (30_encoding.md R91). -/
def fieldRSV0 (c : Word) : BitVec 4 := c.extractLsb' 4 4

/-- `LEN = C[15:8]` (30_encoding.md R91). -/
def fieldLEN (c : Word) : BitVec 8 := c.extractLsb' 8 8

/-- `RSV1 = C[31:16]` (30_encoding.md R91). -/
def fieldRSV1 (c : Word) : BitVec 16 := c.extractLsb' 16 16

/-- A command word from its four fields (30_encoding.md R91). -/
def commandWord (rsv1 : BitVec 16) (len : BitVec 8) (rsv0 op : BitVec 4) : Word := rsv1 ++ len ++ rsv0 ++ op

/-- `decode(C)`, the clauses of 30_encoding.md R96 in their order. -/
def decode (c : Word) : Except IllegalWord Instr :=
  if fieldRSV1 c ≠ 0 ∨ fieldRSV0 c ≠ 0 then .error .reservedField
  else if fieldOP c = 0x1 then
    if fieldLEN c = 0 then .ok .init else .error .lenNotZero
  else if fieldOP c = 0x2 then .ok (.process ((fieldLEN c).setWidth 32))
  else if fieldOP c = 0x3 then
    if fieldLEN c = 0 then .ok .setctr else .error .lenNotZero
  else .error .noSuchOp

/-- The word of a command (30_encoding.md R91, R92, R98). -/
def encode : Instr → Word
  | .init => commandWord 0 0 0 0x1
  | .process blen => commandWord 0 (blen.setWidth 8) 0 0x2
  | .setctr => commandWord 0 0 0 0x3

/-- A row of opcode_table.json: the words w with `w & mask = value`. -/
structure OpcodeRow where
  mask  : Word
  value : Word
deriving DecidableEq, Repr

/-- The word lies in the row. -/
def OpcodeRow.covers (r : OpcodeRow) (w : Word) : Bool := w &&& r.mask == r.value

/-- The row of opcode_table.json each command belongs to. -/
def Instr.row : Instr → OpcodeRow
  | .init => ⟨0xFFFFFFFF, 0x00000001⟩
  | .process _ => ⟨0xFFFF00FF, 0x00000002⟩
  | .setctr => ⟨0xFFFFFFFF, 0x00000003⟩

/-- The three rows, in the table's order. -/
def opcodeRows : List OpcodeRow := [Instr.init.row, (Instr.process 0).row, Instr.setctr.row]

/-- The instruction the decoder reads from an instruction of `nbits` bits whose bits are `w`, numbered as
opcode_table.json numbers them; every bit from `nbits` up is 0. A command is one 32-bit word (30_encoding.md R90), so
a set bit above bit 31 is no command. -/
def decodeTableWord (nbits w : Nat) : Option Instr :=
  let bits := w % 2 ^ nbits
  if bits < 2 ^ 32 then
    match decode (BitVec.ofNat 32 bits) with
    | .ok i => some i
    | .error _ => none
  else none

end Sys2Proof
end

