-- ==== Sys2Proof/Machine/Fsm.lean ====
section
/-! DEFINITION. The command FSM, state by state (70_reset_and_hazards.md R255 to R257, 43_counter.md R191): the
reference sequence that the meanings of the commands summarize. -/

namespace Sys2Proof.Machine

/-- The checks DECODE makes for a command (70_reset_and_hazards.md R255). -/
def State.check (s : State) : Instr → ErrCode
  | .init => s.initCheck
  | .process blen => s.processCheck blen
  | .setctr => s.setctrCheck

/-- Where DECODE goes for a command whose checks pass (70_reset_and_hazards.md R255). -/
def firstState : Instr → Fsm
  | .init => .INIT_LOAD
  | .process _ => .BLK_COPY
  | .setctr => .SETC

/-- To FINISH with a pending code (70_reset_and_hazards.md R255). -/
def State.pendError (s : State) (e : ErrCode) : State := { s with FSM := .FINISH, staged := Staged.failed e }

/-- DECODE (70_reset_and_hazards.md R255), in the priority of 60_exceptions.md R216. -/
def State.tickDecode (s : State) : State :=
  match decode s.CMDL with
  | .error _ => s.pendError .ILLEGAL_COMMAND
  | .ok i =>
    match s.check i with
    | .NONE => { s with FSM := firstState i, staged := Staged.nothing }
    | e => s.pendError e

/-- The index set of quarter-round QRI of a double-round: the columns for 0 to 3, the diagonals for 4 to 7
(70_reset_and_hazards.md R256, BLK_ROUND). -/
def roundLanes (q : Fin 8) : Lanes := (columnLanes ++ diagonalLanes)[q]

/-- BLK_ROUND (70_reset_and_hazards.md R256): one quarter-round, then the indices; the next state is chosen by the
advanced DRI (log 19). -/
def State.tickRound (s : State) : State :=
  let dri : Fin 128 := if s.QRI = 7 then s.DRI + 1 else s.DRI
  { s with
    X := qrApply s.X (roundLanes s.QRI)
    QRI := s.QRI + 1
    DRI := dri
    FSM := if dri.val < s.RND.toNat / 2 then .BLK_ROUND else .BLK_FEED }

/-- CINC_LO (43_counter.md R191), staged. -/
def State.tickCincLo (s : State) : State :=
  let lo := add32 s.S[12] 1
  { s with
    staged := { s.staged with ctrLo := some lo }
    FSM := if lo = 0 then .CINC_HI else .FINISH }

/-- One state of the reference FSM (70_reset_and_hazards.md R256). In IDLE there is nothing to do. -/
def State.tick (s : State) : State :=
  match s.FSM with
  | .IDLE => s
  | .DECODE => s.tickDecode
  | .INIT_LOAD => { s with staged := s.initResults, FSM := .FINISH }
  | .BLK_COPY => { s with X := s.S, DRI := 0, QRI := 0, FSM := .BLK_ROUND }
  | .BLK_ROUND => s.tickRound
  | .BLK_FEED => { s with KW := feedFwd s.X s.S, FSM := .BLK_COMBINE }
  | .BLK_COMBINE => { s with staged := { s.staged with dout := some (combineWords s.DIN s.KW) }, FSM := .CINC_LO }
  | .CINC_LO => s.tickCincLo
  | .CINC_HI => { s with staged := { s.staged with ctrHi := some (add32 s.S[13] 1) }, FSM := .FINISH }
  | .SETC =>
    { s with staged := { s.staged with ctrLo := some s.CTRIN_LO, ctrHi := some s.CTRIN_HI }, FSM := .FINISH }
  | .FINISH => s.commit s.staged

/-- n states of the reference FSM. -/
def State.ticks : Nat → State → State
  | 0, s => s
  | n + 1, s => s.tick.ticks n

/-- The number of reference states the longest command has (70_reset_and_hazards.md R269: 7 + 4·254), rounded up. -/
def longestCommand : Nat := 1024

/-- The number of reference states from DECODE to the return to IDLE (70_reset_and_hazards.md R269). -/
def State.referenceClocks (s : State) : Instr → Nat
  | .init => if s.initCheck = .NONE then 3 else 2
  | .process blen =>
    if s.processCheck blen = .NONE then 6 + 8 * (s.RND.toNat / 2) + (if s.S[12] = 0xFFFFFFFF then 1 else 0) else 2
  | .setctr => if s.setctrCheck = .NONE then 3 else 2

end Sys2Proof.Machine
end

