-- ==== Sys2Proof/Machine/Bus.lean ====
section
/-! DEFINITION. The host's bus transactions on the register window (20_memory.md R66 to R72, 60_exceptions.md R214 to
R217). -/

namespace Sys2Proof.Machine

/-- `MemRead` (20_memory.md R66): response, data and the state after. A read changes nothing of the core (R71); a draw
(70_reset_and_hazards.md R254) only moves the model's count of draws. -/
def State.memRead (s : State) (a : Access) : Response × Word × State :=
  if isWordAccess a then
    match regAt a.off with
    | none => (.busError a.off, 0, s)
    | some r =>
      if isResultReg r && s.busy then (.okay, Config.drawWord s.draws, { s with draws := s.draws + 1 })
      else (.okay, s.readReg r, s)
  else (.busError a.off, 0, s)

/-- A write to a register the host may write, in the order of 20_memory.md R67: STATUS, then BUSY, then CMD, then the
input registers. -/
def State.writeReg (s : State) (r : Reg) (v : Word) : State :=
  if r = .STATUS then s.writeStatus v
  else if s.busy then s.dropWrite
  else if r = .CMD then s.accept v
  else s.writeInput r v

/-- `MemWrite` (20_memory.md R67): a bus error comes first and has no effect (60_exceptions.md R215, R217). -/
def State.memWrite (s : State) (a : Access) (v : Word) : Response × State :=
  if isWordAccess a then
    match regAt a.off with
    | none => (.busError a.off, s)
    | some r => if isResultReg r then (.busError a.off, s) else (.okay, s.writeReg r v)
  else (.busError a.off, s)

/-- The host's observation grows by one reply (00_scope.md R19). -/
def State.logReply (s : State) (r : Reply) : State := { s with replies := s.replies ++ [r] }

/-- One bus transaction of the HOST (00_scope.md R18). The core does not see an access outside its window
(20_memory.md R69): it neither answers nor changes. -/
def State.busTransaction (s : State) (t : Transaction) : State :=
  match t with
  | .read a =>
    if inWindow a then
      let (response, data, s') := s.memRead a
      s'.logReply (.read a.off response data)
    else s
  | .write a v =>
    if inWindow a then
      let (response, s') := s.memWrite a v
      s'.logReply (.write a.off response)
    else s

/-- One bus transaction of the HOST at an address (20_memory.md R60, R66, R67): the transaction at that offset from BASE; below
BASE, as above the window, the core does not see it (R69). -/
def State.busCycle (s : State) (c : BusCycle) : State :=
  match c with
  | .read b =>
    match atOffset b with
    | some a => s.busTransaction (.read a)
    | none => s
  | .write b v =>
    match atOffset b with
    | some a => s.busTransaction (.write a v)
    | none => s

end Sys2Proof.Machine
end

