-- ==== Sys2Proof/Machine/HostProgram.lean ====
section
/-! DEFINITION. The HOST agent running a program in the host assembly (30_encoding.md R100), the pseudo-instructions
(R101), and the boot and block procedures written in it (70_reset_and_hazards.md R260, R261). -/

namespace Sys2Proof.Machine

/-- Temporary `n`; one that is not listed is 0 (log 11). -/
def tempGet : List (Nat × Word) → Nat → Word
  | [], _ => 0
  | (k, v) :: rest, n => if k = n then v else tempGet rest n

/-- Temporary `n` takes the value `v`; the list stays sorted and lists no 0. -/
def tempSet : List (Nat × Word) → Nat → Word → List (Nat × Word)
  | [], n, v => if v = 0 then [] else [(n, v)]
  | (k, w) :: rest, n, v =>
    if n < k then (if v = 0 then (k, w) :: rest else (n, v) :: (k, w) :: rest)
    else if n = k then (if v = 0 then rest else (n, v) :: rest)
    else (k, w) :: tempSet rest n v

/-- The line a label names. DESIGN CHOICE, where 30_encoding.md R100 is silent: the program's end if no line defines it, and the
first line that does if several do; no step asks for `hostLabelsUnique` (log 11). -/
def labelLine (p : List HostLine) (label : Nat) : Nat := p.findIdx fun line => line.labels.contains label

/-- The program has a next statement. -/
def HostAgent.running (h : HostAgent) : Bool := !h.halted && decide (h.line < h.program.length)

/-- On to the next line. -/
def HostAgent.advance (h : HostAgent) : HostAgent := { h with line := h.line + 1 }

/-- A branch: to the label if the condition holds, else to the next line. -/
def HostAgent.branch (h : HostAgent) (taken : Bool) (label : Nat) : HostAgent :=
  if taken then { h with line := labelLine h.program label } else h.advance

/-- One statement of the host program (30_encoding.md R100). `wr` and `rd` are one transaction each; `beq`, `bne` and
`halt` issue none. A bus error does not divert the host (log 11). -/
def State.hostStatement (s : State) (stmt : HostStmt) : State :=
  match stmt with
  | .wr r imm =>
    let s' := s.busTransaction (.write (wordAccess r) imm)
    { s' with host := s.host.advance }
  | .rd r t =>
    let data := (s.memRead (wordAccess r)).2.1
    let s' := s.busTransaction (.read (wordAccess r))
    { s' with host := { s.host.advance with temps := tempSet s.host.temps t data } }
  | .beq t mask value label =>
    { s with host := s.host.branch (tempGet s.host.temps t &&& mask == value) label }
  | .bne t mask value label =>
    { s with host := s.host.branch (tempGet s.host.temps t &&& mask != value) label }
  | .halt => { s with host := { s.host with halted := true } }

/-- The HOST takes the next statement of its program; a program that has ended does nothing. -/
def State.hostTurn (s : State) : State :=
  if s.host.running then
    match s.host.program[s.host.line]? with
    | some line => s.hostStatement line.stmt
    | none => s
  else s

/-- A line without a label. -/
def plainLine (stmt : HostStmt) : HostLine := ⟨[], stmt⟩

/-- `INIT` (30_encoding.md R101). -/
def asmInit : List HostLine := [plainLine (.wr .CMD 0x00000001)]

/-- `PROCESS n` (30_encoding.md R101): the word is (n << 8) | 2. -/
def asmProcess (n : BitVec 8) : List HostLine :=
  [plainLine (.wr .CMD ((n.setWidth 32 <<< 8) ||| 0x00000002))]

/-- `PROCESS` is `PROCESS 64` (30_encoding.md R101). -/
def asmProcessBlock : List HostLine := asmProcess 64

/-- `SETCTR` (30_encoding.md R101). -/
def asmSetctr : List HostLine := [plainLine (.wr .CMD 0x00000003)]

/-- `CFG klen, ivlen, rounds` (30_encoding.md R101). -/
def asmCfg (klen ivlen rounds : BitVec 8) : List HostLine :=
  [plainLine (.wr .CONFIG ((rounds.setWidth 32 <<< 16) ||| (ivlen.setWidth 32 <<< 8) ||| klen.setWidth 32))]

/-- `WAIT` (30_encoding.md R101), with its fresh label `w`: poll until BUSY = 0. -/
def asmWait (w : Nat) : List HostLine :=
  [⟨[w], .rd .STATUS 0⟩, plainLine (.bne 0 0x1 0x0 w)]

/-- `CLRBW` (30_encoding.md R101). -/
def asmClrbw : List HostLine := [plainLine (.wr .STATUS 0x00000008)]

/-- Writes of a bank, one word after the other. -/
def asmWrites {n : Nat} (reg : Fin n → Reg) (v : Vector Word n) : List HostLine :=
  List.ofFn fun k => plainLine (.wr (reg k) v[k])

/-- What the host must do after reset (70_reset_and_hazards.md R260, steps 1 to 5); labels `w` and `failed` are fresh,
and the program halts at `failed` unless ERR = 0 and INITD = 1. -/
def asmBoot (config : Word) (key : Vector Word 8) (iv : Vector Word 2) (w failed : Nat) : List HostLine :=
  plainLine (.wr .CONFIG config) :: asmWrites .KEY key ++ asmWrites .IV iv ++ asmInit ++ asmWait w ++
    [plainLine (.bne 0 0xF2 0x02 failed)]

/-- What the host must do for each block (70_reset_and_hazards.md R261): wait, write DIN, PROCESS, wait, check ERR = 0
and DVALID = 1, read DOUT0 to DOUT15 into temporaries 1 to 16. -/
def asmBlock (din : Block) (w1 w2 failed : Nat) : List HostLine :=
  asmWait w1 ++ asmWrites .DIN din ++ asmProcessBlock ++ asmWait w2 ++ [plainLine (.bne 0 0xF4 0x04 failed)] ++
    List.ofFn fun k : Fin 16 => plainLine (.rd (.DOUT k) (k.val + 1))

end Sys2Proof.Machine
end

