-- ==== Sys2Proof/Machine/Turns.lean ====
section
/-! DEFINITION. Who moves next (00_scope.md R18) and what each agent's move does. -/

namespace Sys2Proof.Machine

/-- The accepted command run from DECODE to FINISH: the word in CMDL decoded and executed, or completed as illegal
(70_reset_and_hazards.md R255, R257; 60_exceptions.md R213). -/
def runCommand (s : State) : Host.Outcome State Fault Refusal :=
  match decode s.CMDL with
  | .ok i => exec i s
  | .error _ => .next s.completeIllegal

/-- A CORE step (00_scope.md R18). `run` from the middle of a command goes through the rest of its states; a core that
is idle does nothing (log 16). -/
def coreTurn (m : CoreMove) (s : State) : Host.Outcome State Fault Refusal :=
  match m with
  | .tick => .next s.tick
  | .run => if s.FSM = .DECODE then runCommand s else .next (s.ticks longestCommand)
  | .stall => .next s

/-- One agent's move. -/
def takeTurn (t : Turn) (s : State) : Host.Outcome State Fault Refusal :=
  match t with
  | .bus tx => .next (s.busTransaction tx)
  | .cycle c => .next (s.busCycle c)
  | .program => .next s.hostTurn
  | .core m => coreTurn m s
  | .reset => .next s.applyReset

/-- The turn that comes next and the state it is taken in: the first of `turns`; without one, the core if it is busy
(so an accepted command completes, R18's fairness), else the host's program if it runs, else nobody. -/
def State.nextTurn (s : State) : Option Turn × State :=
  match s.turns with
  | t :: rest => (some t, { s with turns := rest })
  | [] =>
    if s.busy then (some (.core .run), s)
    else if s.host.running then (some .program, s)
    else (none, s)

/-- A command word where the CORE reads its next command: accepted (70_reset_and_hazards.md R251), with the CORE to move
next (log 7). -/
def State.placeCommand (s : State) (w : Word) : State :=
  { s.accept w with turns := .core .run :: s.turns }

end Sys2Proof.Machine
end

