-- ==== Sys2Proof/Machine/Step.lean ====
section
/-! DEFINITION. One step of the machine, and how a command is placed for the very next step. -/

namespace Sys2Proof.Machine

/-- One step: the agent whose turn it is moves (00_scope.md R18); if none has anything to do, nothing changes. -/
def step (s : State) : Host.Outcome State Fault Refusal :=
  match s.nextTurn with
  | (some t, s') => takeTurn t s'
  | (none, s') => .next s'

/-- `s` with the command word `w` accepted and the CORE to run it in the next step (log 7). -/
def State.withFetchWord (s : State) (nbits w : Nat) : State :=
  s.placeCommand (BitVec.ofNat 32 (w % 2 ^ nbits))

end Sys2Proof.Machine
end

