-- ==== Sys2Proof/Safety.lean ====
section
/-! DEFINITION. What a sound state and a safe use of the core are, in the terms the statements use. -/

namespace Sys2Proof.Machine

/-- A round count an engine may have: even and at least 2 (41_init.md R153, 10_state.md R41). -/
def legalRounds (r : BitVec 8) : Prop := 2 ≤ r.toNat ∧ r.toNat % 2 = 0

/-- S starts with the constant set of the key size, and repeats a 16-byte key (41_init.md R154, R157, R158). -/
def engineLayout (S : Block) (key256 : Bool) : Prop :=
  (∀ i : Fin 4, S[i.val] = (Config.constants key256)[i]) ∧
  (key256 = false → ∀ i : Fin 4, S[8 + i.val] = S[4 + i.val])

/-- A valid PROCESS is under way (70_reset_and_hazards.md R255): the word in CMDL is PROCESS 64, the engine is there, and its
round count is one an engine may have. -/
def State.inProcess (s : State) : Prop :=
  decode s.CMDL = .ok (.process 64) ∧ s.INITD = true ∧ legalRounds s.RND

/-- X after DRI double-rounds and the first QRI quarter-rounds of the next one (70_reset_and_hazards.md R256, BLK_ROUND). -/
def State.partialRounds (s : State) : Block :=
  applyLanes ((columnLanes ++ diagonalLanes).toList.take s.QRI.val) (doubleRounds s.DRI.val s.S)

/-- The output block of the command under way (42_process.md R173), staged. -/
def State.stagedBlock (s : State) : Staged :=
  { Staged.nothing with dout := some (combineWords s.DIN (blockFn s.S s.RND)) }

/-- What the core holds internally is what the command in CMDL has computed so far: for each state of the FSM, what the
reference sequence of 70_reset_and_hazards.md R256 has in X, KW, DRI, QRI and staged there. In FINISH, committing what is staged
is the whole command. -/
def State.onItsWay (s : State) : Prop :=
  match s.FSM with
  | .IDLE => True
  | .DECODE => True
  | .INIT_LOAD => decode s.CMDL = .ok .init ∧ s.initCheck = .NONE
  | .BLK_COPY => s.inProcess ∧ s.staged = Staged.nothing
  | .BLK_ROUND =>
    s.inProcess ∧ s.staged = Staged.nothing ∧ s.DRI.val < s.RND.toNat / 2 ∧ s.X = s.partialRounds
  | .BLK_FEED => s.inProcess ∧ s.staged = Staged.nothing ∧ s.X = permute s.S s.RND
  | .BLK_COMBINE => s.inProcess ∧ s.staged = Staged.nothing ∧ s.KW = blockFn s.S s.RND
  | .CINC_LO => s.inProcess ∧ s.staged = s.stagedBlock
  | .CINC_HI => s.inProcess ∧ s.S[12] = 0xFFFFFFFF ∧ s.staged = { s.stagedBlock with ctrLo := some 0 }
  | .SETC => decode s.CMDL = .ok .setctr ∧ s.INITD = true ∧ s.staged = Staged.nothing
  | .FINISH => runCommand s = .next (s.commit s.staged)

/-- The temporaries are listed by strictly rising number, and none that is 0 is listed: equal temporaries, equal lists. -/
def tempsCanonical (temps : List (Nat × Word)) : Prop :=
  temps.Pairwise (fun p q => p.1 < q.1) ∧ ∀ p ∈ temps, p.2 ≠ 0

/-- The invariant of the machine: State.reset has it and every step keeps it. -/
structure State.Inv (s : State) : Prop where
  /-- CONFIG [31:24] reads 0 (10_state.md R21, R22). -/
  configReserved : s.CONFIG.extractLsb' 24 8 = 0
  /-- "While INITD = 1 its value is always even and at least 2" (10_state.md R41). -/
  engineRounds : s.INITD = true → legalRounds s.RND
  /-- The engine's words follow the slot table (41_init.md R157). -/
  engineWords : s.INITD = true → engineLayout s.S s.K256
  /-- Only a successful INIT makes an engine (10_state.md R42, R52): before it everything is at its reset value. -/
  noEngine : s.INITD = false →
    s.S = Vector.replicate 16 0 ∧ s.RND = 0 ∧ s.K256 = false ∧ s.DOUT = Vector.replicate 16 0
  /-- While BUSY = 1, DVALID = 0 and ERR reads 0 (70_reset_and_hazards.md R254, 60_exceptions.md R228). -/
  busyFlags : s.busy = true → s.DVALID = false ∧ s.ERR = .NONE
  /-- DVALID = 1: the last command was a successful PROCESS (10_state.md R26). -/
  validOutput : s.DVALID = true → s.INITD = true ∧ s.ERR = .NONE
  /-- The command FSM is somewhere on the reference sequence of the command in CMDL (70_reset_and_hazards.md R256). -/
  progress : s.onItsWay
  /-- The host's temporaries are in their one canonical form. -/
  temporaries : tempsCanonical s.host.temps

/-- The two states hold the same host registers that a host write stores to (10_state.md R52). -/
def State.sameInputs (s t : State) : Prop :=
  t.CONFIG = s.CONFIG ∧ t.KEY = s.KEY ∧ t.IV = s.IV ∧ t.CTRIN_LO = s.CTRIN_LO ∧ t.CTRIN_HI = s.CTRIN_HI ∧
    t.DIN = s.DIN

/-- The two states hold the same engine (10_state.md R20, second class). -/
def State.sameEngine (s t : State) : Prop := t.S = s.S ∧ t.RND = s.RND ∧ t.INITD = s.INITD ∧ t.K256 = s.K256

/-- The two states have the same STATUS flags that are not engine state (10_state.md R23). -/
def State.sameFlags (s t : State) : Prop := t.DVALID = s.DVALID ∧ t.BWERR = s.BWERR ∧ t.ERR = s.ERR

/-- The two states hold the same internal state (10_state.md R20, third class). -/
def State.sameInternal (s t : State) : Prop :=
  t.FSM = s.FSM ∧ t.CMDL = s.CMDL ∧ t.DRI = s.DRI ∧ t.QRI = s.QRI ∧ t.X = s.X ∧ t.KW = s.KW ∧ t.staged = s.staged

/-- Nothing around the core differs: the host, its observation, the schedule. -/
def State.sameAround (s t : State) : Prop := t.host = s.host ∧ t.replies = s.replies ∧ t.turns = s.turns

/-- The two states hold the same core: every piece of state of 10_state.md R50. -/
def State.sameCore (s t : State) : Prop :=
  s.sameInputs t ∧ t.DOUT = s.DOUT ∧ s.sameEngine t ∧ s.sameFlags t ∧ s.sameInternal t

/-- What the host can read with a defined value while BUSY = 1, and what it can read once BUSY = 0
(70_reset_and_hazards.md R254, R259). -/
def State.sameVisible (s t : State) : Prop :=
  s.sameInputs t ∧ t.DOUT = s.DOUT ∧ s.sameEngine t ∧ s.sameFlags t

/-- A transaction that keeps clear of the hazards R262 and R263 (70_reset_and_hazards.md): a well-shaped access to a
register that may be accessed so, with results read and inputs written only while BUSY = 0. -/
def State.disciplined (s : State) : Transaction → Bool
  | .read a =>
    isWordAccess a &&
      match regAt a.off with
      | none => false
      | some r => !(isResultReg r && s.busy)
  | .write a _ =>
    isWordAccess a &&
      match regAt a.off with
      | none => false
      | some r => !isResultReg r && (r == .STATUS || !s.busy)

/-- n successful PROCESS commands, one after the other, with only what INIT and SETCTR do not touch changing in between:
each starts with the engine the one before left (43_counter.md R199). -/
def blockChain (f : Nat → State) (n : Nat) : Prop :=
  (f 0).INITD = true ∧
  ∀ k, k < n → ∃ u : State, (f k).sameEngine u ∧ exec (.process 64) u = .next (f (k + 1))

end Sys2Proof.Machine
end

