-- ==== Sys2Proof/Certificates/Slice0/Obligations.lean ====
section
/-! DEFINITION. The statements for the provers. Each docstring names the rule of spec/ it formalises. -/

section

open Sys2Proof Sys2Proof.Machine

/-! ### Encoding (30_encoding.md) -/

/-- Decoding an encoded well-formed command gives it back, for every command and every operand (R91, R92, R96). -/
def Obligations.DecodeOfEncode : Prop :=
  ∀ i : Instr, i.wellFormed = true → decode (encode i) = .ok i

/-- Every word the decoder takes is the encoding of what it decodes to, and that is well-formed (R96, R98). -/
def Obligations.DecodedWordIsItsEncoding : Prop :=
  ∀ (w : Word) (i : Instr), decode w = .ok i → i.wellFormed = true ∧ encode i = w

/-- R98: the legal words are INIT, SETCTR and the 256 PROCESS words, 258 in all; of the PROCESS words only 0x00004002 runs a
block, the others complete with INVALID_BLOCK_LENGTH or NOT_INITIALIZED. -/
def Obligations.LegalWordsAreExactly258 : Prop :=
  (∃ legal : List Word, legal.Nodup ∧ legal.length = 258 ∧ ∀ w, w ∈ legal ↔ ∃ i, decode w = .ok i) ∧
  (∀ w, decode w = .ok .init ↔ w = 0x00000001) ∧
  (∀ w, decode w = .ok .setctr ↔ w = 0x00000003) ∧
  (∀ (w : Word) (ll : BitVec 8),
    decode w = .ok (.process (ll.setWidth 32)) ↔ w = (ll.setWidth 32 <<< 8) ||| 0x00000002) ∧
  (∀ (s : State) (ll : BitVec 8), ll ≠ 0x40 → ∃ t, exec (.process (ll.setWidth 32)) s = .next t ∧
    (t.ERR = .INVALID_BLOCK_LENGTH ∨ t.ERR = .NOT_INITIALIZED)) ∧
  (∀ s : State, s.INITD = true → ∃ t, exec (.process 0x40) s = .next t ∧ t.ERR = .NONE ∧ t.DVALID = true)

/-- The decoder agrees with the masks and values of opcode_table.json, and no two rows share a word. -/
def Obligations.DecoderFollowsOpcodeTable : Prop :=
  (∀ w, decode w = .ok .init ↔ Instr.init.row.covers w = true) ∧
  (∀ w, (∃ blen, decode w = .ok (.process blen)) ↔ (Instr.process 0).row.covers w = true) ∧
  (∀ w, decode w = .ok .setctr ↔ Instr.setctr.row.covers w = true) ∧
  opcodeRows.Pairwise fun r q => ∀ w, ¬(r.covers w = true ∧ q.covers w = true)

/-- The words of R103 and of 95_test_vectors.md 2.11, written out from the field table R91. -/
def Obligations.WrittenOutWordsDecode : Prop :=
  decode 0b00000000000000000000000000000001 = .ok .init ∧
  decode 0b00000000000000000100000000000010 = .ok (.process 64) ∧
  decode 0b00000000000000001111111100000010 = .ok (.process 255) ∧
  decode 0b00000000000000000000000000000011 = .ok .setctr ∧
  decode 0b00000000000000000000000000000000 = .error .noSuchOp ∧
  decode 0b00000000000000000000000100000001 = .error .lenNotZero ∧
  decode 0b00000000000000000100000000010010 = .error .reservedField ∧
  decode 0b00010000000000000100000000000010 = .error .reservedField

/-- R94: a word with a non-zero reserved field, written to CMD while BUSY = 0, completes with ILLEGAL_COMMAND and has no other
effect (beyond acceptance, which cleared DVALID), whatever its OP; R95: so does one with an OP of 0 or 4 to 15.
RSV1, RSV0, LEN and OP are read off the word by division. That the core runs the
command in one merged step is the model's choice of a move (log 6, DEDUCED). -/
def Obligations.IllegalWordOnlySetsErr : Prop :=
  ∀ (s : State) (w : Word), s.busy = false →
    (w.toNat / 65536 ≠ 0 ∨ w.toNat / 16 % 16 ≠ 0 ∨
      ((w.toNat % 16 = 1 ∨ w.toNat % 16 = 3) ∧ w.toNat / 256 % 256 ≠ 0) ∨
      w.toNat % 16 = 0 ∨ 4 ≤ w.toNat % 16) →
    (∃ e, decode w = .error e) ∧
    ∃ t, coreTurn .run (s.accept w) = .next t ∧ t.ERR = .ILLEGAL_COMMAND ∧ t.busy = false ∧ t.DVALID = false ∧
      t.BWERR = s.BWERR ∧ s.sameInputs t ∧ t.DOUT = s.DOUT ∧ s.sameEngine t ∧ s.sameAround t

/-! ### Datapath (40_datapath.md) -/

/-- R120 and R123: the adder is addition modulo 2^32 and the XOR is its own inverse, with the corner cases listed. -/
def Obligations.WordPrimitives : Prop :=
  (∀ a b : Word, (add32 a b).toNat = (a.toNat + b.toNat) % 2 ^ 32) ∧
  (∀ a b : Word, add32 a b = add32 b a) ∧
  (∀ a b c : Word, add32 (add32 a b) c = add32 a (add32 b c)) ∧
  (∀ a : Word, add32 a 0 = a) ∧
  add32 0xFFFFFFFF 0x00000001 = 0x00000000 ∧ add32 0x80000000 0x80000000 = 0x00000000 ∧
  add32 0xFFFFFFFF 0xFFFFFFFF = 0xFFFFFFFE ∧ add32 0x11111111 0x01020304 = 0x12131415 ∧
  (∀ a b : Word, xor32 a b = a ^^^ b) ∧ (∀ a : Word, xor32 a a = 0) ∧ (∀ a : Word, xor32 a 0 = a) ∧
  (∀ a k : Word, xor32 (xor32 a k) k = a) ∧ xor32 0x01234567 0x12131415 = 0x13305172

/-- R121: bit i of `rotl32(v, n)` is bit (i - n) mod 32 of v; n = 0 is the identity; the corner cases. -/
def Obligations.RotatorMovesBits : Prop :=
  (∀ (v : Word) (n i : Nat), n < 32 → i < 32 → (rotl32 v n).getLsbD i = v.getLsbD ((i + 32 - n) % 32)) ∧
  (∀ v : Word, rotl32 v 0 = v) ∧
  (∀ n : Nat, n < 32 → rotl32 0 n = 0 ∧ rotl32 0xFFFFFFFF n = 0xFFFFFFFF) ∧
  rotl32 0x80000000 7 = 0x00000040 ∧ rotl32 0x00000001 16 = 0x00010000 ∧
  rotl32 0x12345678 16 = 0x56781234 ∧ rotl32 0x12345678 12 = 0x45678123 ∧
  rotl32 0x12345678 8 = 0x34567812 ∧ rotl32 0x12345678 7 = 0x1A2B3C09

/-- R124: the four stages in a row compute QR (R122), with the stage values of R124's worked example. -/
def Obligations.PipelineComputesQuarterRound : Prop :=
  (∀ q : Quad, qs4 (qs3 (qs2 (qs1 q))) = qr q) ∧
  qs1 ⟨0x11111111, 0x01020304, 0x9b8d6f43, 0x01234567⟩ = ⟨0x12131415, 0x01020304, 0x9b8d6f43, 0x51721330⟩ ∧
  qs2 ⟨0x12131415, 0x01020304, 0x9b8d6f43, 0x51721330⟩ = ⟨0x12131415, 0xd8177edf, 0xecff8273, 0x51721330⟩ ∧
  qs3 ⟨0x12131415, 0xd8177edf, 0xecff8273, 0x51721330⟩ = ⟨0xea2a92f4, 0xd8177edf, 0xecff8273, 0x5881c4bb⟩ ∧
  qs4 ⟨0xea2a92f4, 0xd8177edf, 0xecff8273, 0x5881c4bb⟩ = ⟨0xea2a92f4, 0xcb1cf8ce, 0x4581472e, 0x5881c4bb⟩

/-- R125: QRAPPLY at four distinct indices writes QR of the four words read before, and leaves the other twelve alone. -/
def Obligations.QuarterRoundInPlace : Prop :=
  (∀ (x : Block) (n : Lanes),
    n.i ≠ n.j → n.i ≠ n.k → n.i ≠ n.l → n.j ≠ n.k → n.j ≠ n.l → n.k ≠ n.l →
    n.read (qrApply x n) = qr ⟨x[n.i], x[n.j], x[n.k], x[n.l]⟩ ∧
    ∀ m : Fin 16, m ≠ n.i → m ≠ n.j → m ≠ n.k → m ≠ n.l → (qrApply x n)[m] = x[m]) ∧
  (Lanes.mk 2 7 8 13).read (qrApply
    #v[0x879531e0, 0xc5ecf37d, 0x516461b1, 0xc9a62f8a, 0x44c20ef3, 0x3390af7f, 0xd9fc690b, 0x2a5f714c,
      0x53372767, 0xb00a5631, 0x974c541a, 0x359e9963, 0x5c971061, 0x3d631689, 0x2098d9d6, 0x91dbd320]
    ⟨2, 7, 8, 13⟩) = ⟨0xbdb886dc, 0xcfacafd2, 0xe46bea80, 0xccc07c79⟩

/-- R127: the column pass applies QR to each column (c, 4 + c, 8 + c, 12 + c); its index sets partition 0..15; any order of
the four calls gives the same result (R134). -/
def Obligations.ColumnPassInAnyOrder : Prop :=
  (∀ (x : Block) (c : Fin 4),
    (⟨(colPass x)[c.val], (colPass x)[4 + c.val], (colPass x)[8 + c.val], (colPass x)[12 + c.val]⟩ : Quad) =
      qr ⟨x[c.val], x[4 + c.val], x[8 + c.val], x[12 + c.val]⟩) ∧
  (columnLanes.toList.flatMap fun n => [n.i, n.j, n.k, n.l]).Perm (List.finRange 16) ∧
  (∀ (x : Block) (ns : List Lanes), ns.Perm columnLanes.toList → applyLanes ns x = colPass x) ∧
  colPass #v[0, 1, 2, 3, 4, 5, 6, 7, 8, 9, 10, 11, 12, 13, 14, 15] =
    #v[0x8000c004, 0xb000c006, 0x6000c008, 0x5000c00a, 0x64624444, 0xe5e35cdd, 0x63643533, 0xe2e52daa,
       0x08c80488, 0x0bcb06b9, 0x06c6086a, 0x05c50a5b, 0x08c00480, 0x0bc006b0, 0x06c00860, 0x05c00a50]

/-- R128: the diagonal pass applies QR to (0,5,10,15), (1,6,11,12), (2,7,8,13), (3,4,9,14), in that argument order (QR is not
symmetric); the sets partition 0..15; any order of the four calls gives the same result (R134). -/
def Obligations.DiagonalPassInAnyOrder : Prop :=
  (∀ (x : Block) (c : Fin 4),
    (⟨(diagPass x)[c.val], (diagPass x)[4 + (c.val + 1) % 4], (diagPass x)[8 + (c.val + 2) % 4],
        (diagPass x)[12 + (c.val + 3) % 4]⟩ : Quad) =
      qr ⟨x[c.val], x[4 + (c.val + 1) % 4], x[8 + (c.val + 2) % 4], x[12 + (c.val + 3) % 4]⟩) ∧
  (diagonalLanes.toList.flatMap fun n => [n.i, n.j, n.k, n.l]).Perm (List.finRange 16) ∧
  (∀ (x : Block) (ns : List Lanes), ns.Perm diagonalLanes.toList → applyLanes ns x = diagPass x) ∧
  qr ⟨1, 0, 0, 0⟩ ≠ qr ⟨0, 1, 0, 0⟩ ∧
  diagPass #v[0, 1, 2, 3, 4, 5, 6, 7, 8, 9, 10, 11, 12, 13, 14, 15] =
    #v[0xa000f005, 0xb000d007, 0x4000f009, 0x9000d007, 0xecebcccc, 0x7d7ad555, 0xedebdddd, 0x7a7ca422,
       0x04f40948, 0x09d90799, 0x0afa05aa, 0x0bdb07bb, 0x0bd007b0, 0x04f00940, 0x09d00790, 0x0af005a0]

/-- R130: PERMUTE with R = 2 is one double-round, and two rounds more are one double-round more, at the end. -/
def Obligations.RoundLoopRunsHalfTheRounds : Prop :=
  (∀ S : Block, permute S 2 = doubleRound S) ∧
  (∀ (S : Block) (R : BitVec 8), R.toNat % 2 = 0 → R.toNat ≤ 252 →
    permute S (R + 2) = diagPass (colPass (permute S R))) ∧
  (∀ S : Block, permute S 8 = doubleRound (doubleRound (doubleRound (doubleRound S))))

/-- R132: byte 4w + i of the serialized keystream is bits [8i+7:8i] of word w. -/
def Obligations.SerializerIsLittleEndian : Prop :=
  (∀ (kw : Block) (w : Fin 16) (i : Fin 4),
    ((serialize kw)[4 * w.val + i.val]).toNat = kw[w].toNat / 256 ^ i.val % 256) ∧
  (∀ kw : Block, (serialize kw)[0] = kw[0].extractLsb' 0 8 ∧ (serialize kw)[63] = kw[15].extractLsb' 24 8)

/-- R14: `le_bytes` and `le_word` are inverse to each other, and `le_word` weighs byte i by 2^(8i). -/
def Obligations.LittleEndianConversionsInvert : Prop :=
  (∀ w : Word, leWord (leBytes w) = w) ∧ (∀ b : Vector Byte 4, leBytes (leWord b) = b) ∧
  (∀ b : Vector Byte 4, (leWord b).toNat = b[0].toNat + 2 ^ 8 * b[1].toNat + 2 ^ 16 * b[2].toNat + 2 ^ 24 * b[3].toNat)

/-- R133: the byte-wise combiner, packed into words, is the word-wise XOR; byte i of the output is byte i of the input
XOR byte i of the keystream. -/
def Obligations.CombinerBytesAndWordsAgree : Prop :=
  (∀ (input ks : Vector Byte 64) (i : Fin 64), (combine input ks)[i] = input[i] ^^^ ks[i]) ∧
  (∀ din kw : Block, packWords (combine (serialize din) (serialize kw)) = combineWords din kw) ∧
  (∀ (din kw : Block) (w : Fin 16), (combineWords din kw)[w] = din[w] ^^^ kw[w]) ∧
  (0x41 : Byte) ^^^ 0x76 = 0x37

/-! ### INIT (41_init.md) -/

/-- R151, R152, R153 in the order of R216: INIT completes with the first check that fails, and with NONE when none does.
KEYLEN, IVLEN and ROUNDS are read off CONFIG by division. -/
def Obligations.InitChecksInOrder : Prop :=
  ∀ s : State,
    let klen := s.CONFIG.toNat % 256
    let ivlen := s.CONFIG.toNat / 256 % 256
    let rounds := s.CONFIG.toNat / 65536 % 256
    ∃ t, exec .init s = .next t ∧
      (klen ≠ 16 ∧ klen ≠ 32 → t.ERR = .INVALID_KEY_LENGTH) ∧
      ((klen = 16 ∨ klen = 32) ∧ ivlen ≠ 8 → t.ERR = .INVALID_IV_LENGTH) ∧
      ((klen = 16 ∨ klen = 32) ∧ ivlen = 8 ∧ (rounds < 2 ∨ rounds % 2 = 1) → t.ERR = .INVALID_ROUND_COUNT) ∧
      ((klen = 16 ∨ klen = 32) ∧ ivlen = 8 ∧ 2 ≤ rounds ∧ rounds % 2 = 0 → t.ERR = .NONE)

/-- R156 to R159: a valid INIT completes with the engine of the slot table, the counter zero, a 16-byte key twice; RND, K256
and INITD latched; and nothing else written: not the inputs, DOUT, DVALID, BWERR (R161). The constants, the slots and the fill are
the values of Config, which the spec takes from general knowledge (log 8). -/
def Obligations.InitBuildsEngine : Prop :=
  ∀ s : State, (s.klen = 16 ∨ s.klen = 32) → s.ivlen = 8 → 2 ≤ s.rounds.toNat → s.rounds.toNat % 2 = 0 →
    ∃ t, exec .init s = .next t ∧
      t.S = (if s.klen = 32
        then (#v[0x61707865, 0x3320646e, 0x79622d32, 0x6b206574, s.KEY[0], s.KEY[1], s.KEY[2], s.KEY[3],
          s.KEY[4], s.KEY[5], s.KEY[6], s.KEY[7], 0, 0, s.IV[0], s.IV[1]] : Block)
        else #v[0x61707865, 0x3120646e, 0x79622d36, 0x6b206574, s.KEY[0], s.KEY[1], s.KEY[2], s.KEY[3],
          s.KEY[0], s.KEY[1], s.KEY[2], s.KEY[3], 0, 0, s.IV[0], s.IV[1]]) ∧
      t.RND.toNat = s.rounds.toNat ∧ (t.K256 = true ↔ s.klen = 32) ∧ t.INITD = true ∧ t.ERR = .NONE ∧ t.busy = false ∧
      s.sameInputs t ∧ t.DOUT = s.DOUT ∧ t.DVALID = s.DVALID ∧ t.BWERR = s.BWERR ∧ s.sameAround t

/-! ### PROCESS (42_process.md) -/

/-- R174 and R175: PROCESS on an initialized engine with blen = 64 completes with DOUT, DVALID = 1, ERR = 0, the counter advanced
by one, and nothing else changed. -/
def Obligations.ProcessOutputs : Prop :=
  ∀ s : State, s.INITD = true →
    ∃ t, exec (.process 64) s = .next t ∧
      (∀ w : Fin 16, t.DOUT[w] = s.DIN[w] ^^^ (add32 (permute s.S s.RND)[w] s.S[w])) ∧
      (∀ j : Fin 64, t.outputBlock[j] = s.inputBlock[j] ^^^ (serialize (blockFn s.S s.RND))[j]) ∧
      t.counter = s.counter + 1 ∧ t.DVALID = true ∧ t.ERR = .NONE ∧ t.busy = false ∧
      (∀ i : Fin 16, i ≠ 12 → i ≠ 13 → t.S[i] = s.S[i]) ∧ t.RND = s.RND ∧ t.K256 = s.K256 ∧ t.INITD = true ∧
      s.sameInputs t ∧ t.BWERR = s.BWERR ∧ s.sameAround t

/-- R171 and R172: without an engine PROCESS completes with NOT_INITIALIZED, with one and blen ≠ 64 with
INVALID_BLOCK_LENGTH; S, the counter, DOUT, DVALID and all else keep their values. -/
def Obligations.ProcessRefusals : Prop :=
  ∀ (s : State) (blen : Word), (s.INITD = false ∨ blen ≠ 64) →
    ∃ t, exec (.process blen) s = .next t ∧
      t.ERR = (if s.INITD = false then .NOT_INITIALIZED else .INVALID_BLOCK_LENGTH) ∧ t.busy = false ∧
      s.sameEngine t ∧ t.counter = s.counter ∧ t.DOUT = s.DOUT ∧ t.DVALID = s.DVALID ∧ t.BWERR = s.BWERR ∧
      s.sameInputs t ∧ s.sameAround t

/-- R135: of two PROCESS commands that start from the same S and RND, the second on the output of the first gives back the
first one's input. -/
def Obligations.DecryptionInvertsEncryption : Prop :=
  ∀ s u : State, s.INITD = true → s.sameEngine u →
    ∃ t, exec (.process 64) s = .next t ∧
      (u.DIN = t.DOUT → ∃ v, exec (.process 64) u = .next v ∧ v.DOUT = s.DIN)

/-- R182: two blocks from the same engine whose DIN differ in some bits have DOUT that differ in exactly those bits. -/
def Obligations.InputBitsFlipOnlyTheirOutputBits : Prop :=
  ∀ s u : State, s.INITD = true → s.sameEngine u →
    ∃ t v, exec (.process 64) s = .next t ∧ exec (.process 64) u = .next v ∧
      ∀ w : Fin 16, t.DOUT[w] ^^^ v.DOUT[w] = s.DIN[w] ^^^ u.DIN[w]

/-! ### Counter and SETCTR (43_counter.md) -/

/-- R192: `inc64` is {hi, lo} + 1 modulo 2^64, with the examples listed. -/
def Obligations.CounterIncrementIsPlusOne : Prop :=
  (∀ hi lo : Word, (inc64 hi lo).1 ++ (inc64 hi lo).2 = (hi ++ lo : BitVec 64) + 1) ∧
  inc64 0 0 = (0, 1) ∧ inc64 0 0xFFFFFFFF = (1, 0) ∧ inc64 0x12345678 0xFFFFFFFF = (0x12345679, 0) ∧
  inc64 0xFFFFFFFF 0xFFFFFFFE = (0xFFFFFFFF, 0xFFFFFFFF) ∧ inc64 0xFFFFFFFF 0xFFFFFFFF = (0, 0)

/-- R191: the counter-increment FSM visits CINC_LO, and CINC_HI exactly when the low word was 0xFFFFFFFF; the words staged
when it reaches FINISH are those of `inc64`, and on neither path is S itself written on the way there. -/
def Obligations.CounterFsmVisitsHighOnWrap : Prop :=
  ∀ s : State, s.FSM = .CINC_LO → s.staged.ctrHi = none →
    (s.S[12] ≠ 0xFFFFFFFF → s.tick.FSM = .FINISH ∧ s.tick.staged.commitS s.S =
        (s.staged.commitS s.S).set 12 (inc64 s.S[13] s.S[12]).2) ∧
    (s.S[12] = 0xFFFFFFFF → s.tick.FSM = .CINC_HI ∧ s.tick.tick.FSM = .FINISH ∧
      s.tick.tick.staged.ctrLo = some 0 ∧ s.tick.tick.staged.ctrHi = some (inc64 s.S[13] s.S[12]).1 ∧
      s.tick.tick.S = s.S) ∧
    s.tick.S = s.S ∧ s.tick.staged.ctrLo = some (inc64 s.S[13] s.S[12]).2

/-- R199: N successful PROCESS commands, with no INIT or SETCTR between them, advance the counter by exactly N modulo 2^64. -/
def Obligations.BlocksAdvanceCounterByTheirNumber : Prop :=
  ∀ (f : Nat → State) (n : Nat), blockChain f n → (f n).counter = (f 0).counter + BitVec.ofNat 64 n

/-- R197: a successful SETCTR writes the counter from CTRIN, keeps CTRIN, and changes nothing else (R195). -/
def Obligations.SetctrLoadsTheCounter : Prop :=
  ∀ s : State, s.INITD = true →
    ∃ t, exec .setctr s = .next t ∧ t.S[12] = s.CTRIN_LO ∧ t.S[13] = s.CTRIN_HI ∧
      (∀ i : Fin 16, i ≠ 12 → i ≠ 13 → t.S[i] = s.S[i]) ∧ t.RND = s.RND ∧ t.K256 = s.K256 ∧ t.INITD = true ∧
      t.ERR = .NONE ∧ t.busy = false ∧ s.sameInputs t ∧ t.DOUT = s.DOUT ∧ t.DVALID = s.DVALID ∧ t.BWERR = s.BWERR ∧
      s.sameAround t

/-- R196: SETCTR with INITD = 0 completes with NOT_INITIALIZED and does not write S or anything else. -/
def Obligations.SetctrNeedsAnEngine : Prop :=
  ∀ s : State, s.INITD = false →
    ∃ t, exec .setctr s = .next t ∧ t.ERR = .NOT_INITIALIZED ∧ t.busy = false ∧ s.sameEngine t ∧ s.sameInputs t ∧
      t.DOUT = s.DOUT ∧ t.DVALID = s.DVALID ∧ t.BWERR = s.BWERR ∧ s.sameAround t

/-- R211: whatever command fails, and with whatever code, only ERR and the return to IDLE are written. -/
def Obligations.FailedCommandWritesOnlyErr : Prop :=
  ∀ (i : Instr) (s : State), ∃ t, exec i s = .next t ∧ t.FSM = .IDLE ∧ t.ERR = s.check i ∧
    (s.check i ≠ .NONE →
      s.sameInputs t ∧ t.DOUT = s.DOUT ∧ s.sameEngine t ∧ t.BWERR = s.BWERR ∧ t.DVALID = s.DVALID ∧ s.sameAround t)

/-! ### Register window (10_state.md, 20_memory.md) -/

/-- R61 and R69: every register is at its offset, written out, and the reserved aligned offsets of the window are exactly 0x0C
and 0x48 to 0x7C. -/
def Obligations.RegisterMapOffsets : Prop :=
  (regAt 0x00 = some .CMD ∧ regAt 0x04 = some .STATUS ∧ regAt 0x08 = some .CONFIG ∧
    (∀ k : Fin 8, regAt (0x10 + 4 * k.val) = some (.KEY k)) ∧ regAt 0x30 = some (.IV 0) ∧ regAt 0x34 = some (.IV 1) ∧
    regAt 0x38 = some .CTRIN_LO ∧ regAt 0x3C = some .CTRIN_HI ∧ regAt 0x40 = some .CTR_LO ∧ regAt 0x44 = some .CTR_HI ∧
    (∀ k : Fin 16, regAt (0x80 + 4 * k.val) = some (.DIN k)) ∧ ∀ k : Fin 16, regAt (0xC0 + 4 * k.val) = some (.DOUT k)) ∧
  (∀ r : Reg, regAt (regOffset r) = some r ∧ regOffset r % 4 = 0 ∧ regOffset r < 0x100) ∧
  (∀ off : Nat, off < 0x100 → off % 4 = 0 → (regAt off = none ↔ off = 0x0C ∨ (0x48 ≤ off ∧ off ≤ 0x7C))) ∧
  (∀ (off : Nat) (r : Reg), off % 4 = 0 → regAt off = some r → regOffset r = off)

/-- R23: the fields of STATUS, bit by bit; R28 and R212: the number of each error code. -/
def Obligations.StatusFields : Prop :=
  ([.NONE, .INVALID_KEY_LENGTH, .INVALID_IV_LENGTH, .INVALID_ROUND_COUNT, .INVALID_BLOCK_LENGTH, .NOT_INITIALIZED,
    .ILLEGAL_COMMAND].map ErrCode.code = [0, 1, 2, 3, 4, 5, 6]) ∧
  ∀ s : State,
    s.statusWord.getLsbD 0 = s.busy ∧ s.statusWord.getLsbD 1 = s.INITD ∧ s.statusWord.getLsbD 2 = s.DVALID ∧
    s.statusWord.getLsbD 3 = s.BWERR ∧ s.statusWord.extractLsb' 4 4 = s.ERR.code ∧
    s.statusWord.extractLsb' 8 8 = s.RND ∧ s.statusWord.getLsbD 16 = s.K256 ∧ s.statusWord.toNat < 2 ^ 17

/-- R63: key byte j is at byte offset 0x10 + j, IV byte j at 0x30 + j, input byte j at 0x80 + j, output byte j at 0xC0 + j;
and KEY(k) is `le_word` of its four bytes. -/
def Obligations.ByteSequencesInTheWindow : Prop :=
  ∀ s : State,
    (∀ j : Fin 32, s.windowByte (0x10 + j.val) = some (s.keyByte j)) ∧
    (∀ j : Fin 8, s.windowByte (0x30 + j.val) = some (s.ivByte j)) ∧
    (∀ j : Fin 64, s.windowByte (0x80 + j.val) = some s.inputBlock[j]) ∧
    (∀ j : Fin 64, s.windowByte (0xC0 + j.val) = some s.outputBlock[j]) ∧
    (∀ k : Fin 8, s.KEY[k] = leWord #v[s.keyByte ⟨4 * k.val, by omega⟩, s.keyByte ⟨4 * k.val + 1, by omega⟩,
      s.keyByte ⟨4 * k.val + 2, by omega⟩, s.keyByte ⟨4 * k.val + 3, by omega⟩]) ∧
    (∀ k : Fin 2, s.IV[k] = leWord #v[s.ivByte ⟨4 * k.val, by omega⟩, s.ivByte ⟨4 * k.val + 1, by omega⟩,
      s.ivByte ⟨4 * k.val + 2, by omega⟩, s.ivByte ⟨4 * k.val + 3, by omega⟩]) ∧
    packWords s.inputBlock = s.DIN ∧ packWords s.outputBlock = s.DOUT

/-- R66: what a read inside the window answers, case by case and register by register (R21 to R38: STATUS is the word of R23,
CTR_LO and CTR_HI are S[12] and S[13], R36 and R198), and that it changes no state of the core. That the draws of R254 are
`Config.drawWord` of a counter is the model's choice (log 4). -/
def Obligations.ReadAnswers : Prop :=
  ∀ (s : State) (a : Access), a.off < 0x100 →
    s.sameCore (s.memRead a).2.2 ∧ s.sameAround (s.memRead a).2.2 ∧
    (a.off % 4 ≠ 0 ∨ a.bytes ≠ 4 ∨ a.lanes ≠ 0xF → (s.memRead a).1 = .busError a.off ∧ (s.memRead a).2.1 = 0) ∧
    (a.off % 4 = 0 → a.bytes = 4 → a.lanes = 0xF →
      (regAt a.off = none → (s.memRead a).1 = .busError a.off ∧ (s.memRead a).2.1 = 0) ∧
      (regAt a.off = some .CMD → (s.memRead a).1 = .okay ∧ (s.memRead a).2.1 = 0) ∧
      (regAt a.off = some .STATUS → (s.memRead a).2.1 = s.statusWord) ∧
      (regAt a.off = some .CONFIG → (s.memRead a).2.1 = s.CONFIG) ∧
      (∀ k : Fin 8, regAt a.off = some (.KEY k) → (s.memRead a).2.1 = s.KEY[k]) ∧
      (∀ k : Fin 2, regAt a.off = some (.IV k) → (s.memRead a).2.1 = s.IV[k]) ∧
      (regAt a.off = some .CTRIN_LO → (s.memRead a).2.1 = s.CTRIN_LO) ∧
      (regAt a.off = some .CTRIN_HI → (s.memRead a).2.1 = s.CTRIN_HI) ∧
      (∀ k : Fin 16, regAt a.off = some (.DIN k) → (s.memRead a).2.1 = s.DIN[k]) ∧
      (regAt a.off = some .CTR_LO → s.busy = false → (s.memRead a).2.1 = s.S[12]) ∧
      (regAt a.off = some .CTR_HI → s.busy = false → (s.memRead a).2.1 = s.S[13]) ∧
      (∀ k : Fin 16, regAt a.off = some (.DOUT k) → s.busy = false → (s.memRead a).2.1 = s.DOUT[k]) ∧
      (∀ r, regAt a.off = some r →
        (s.memRead a).1 = .okay ∧
        (isResultReg r = true ∧ s.busy = true → (s.memRead a).2.1 = Config.drawWord s.draws) ∧
        (isResultReg r = false ∨ s.busy = false → (s.memRead a).2.1 = s.readReg r)))

/-- R67: what a write inside the window does, case by case in the rule's order. -/
def Obligations.WriteEffects : Prop :=
  ∀ (s : State) (r : Reg) (v : Word),
    (∀ a : Access, a.off < 0x100 → a.off % 4 ≠ 0 ∨ a.bytes ≠ 4 ∨ a.lanes ≠ 0xF ∨ regAt a.off = none →
      s.memWrite a v = (.busError a.off, s)) ∧
    (isResultReg r = true → s.memWrite (wordAccess r) v = (.busError (regOffset r), s)) ∧
    (isResultReg r = false → (s.memWrite (wordAccess r) v).1 = .okay) ∧
    (v.getLsbD 3 = true → s.memWrite (wordAccess .STATUS) v = (.okay, { s with BWERR := false })) ∧
    (v.getLsbD 3 = false → s.memWrite (wordAccess .STATUS) v = (.okay, s)) ∧
    (isResultReg r = false → r ≠ .STATUS → s.busy = true →
      s.memWrite (wordAccess r) v = (.okay, { s with BWERR := true })) ∧
    (s.busy = false → s.memWrite (wordAccess .CMD) v =
      (.okay, { s with CMDL := v, FSM := .DECODE, DVALID := false, ERR := .NONE })) ∧
    (s.busy = false → s.memWrite (wordAccess .CONFIG) v = (.okay, { s with CONFIG := v &&& 0x00FFFFFF })) ∧
    (s.busy = false → ∀ k : Fin 8, s.memWrite (wordAccess (.KEY k)) v = (.okay, { s with KEY := s.KEY.set k v })) ∧
    (s.busy = false → ∀ k : Fin 2, s.memWrite (wordAccess (.IV k)) v = (.okay, { s with IV := s.IV.set k v })) ∧
    (s.busy = false → s.memWrite (wordAccess .CTRIN_LO) v = (.okay, { s with CTRIN_LO := v })) ∧
    (s.busy = false → s.memWrite (wordAccess .CTRIN_HI) v = (.okay, { s with CTRIN_HI := v })) ∧
    (s.busy = false → ∀ k : Fin 16, s.memWrite (wordAccess (.DIN k)) v = (.okay, { s with DIN := s.DIN.set k v }))

/-- R214, R215 and R217: a bus error is answered in exactly the listed cases, BUSY or not; a read that raises it returns 0,
and the transaction has no effect. -/
def Obligations.BusErrorCasesHaveNoEffect : Prop :=
  ∀ (s : State) (a : Access) (v : Word), a.off < 0x100 →
    let bad := a.off % 4 ≠ 0 ∨ a.bytes ≠ 4 ∨ a.lanes ≠ 0xF ∨ a.off = 0x0C ∨ (0x48 ≤ a.off ∧ a.off ≤ 0x7C)
    ((s.memRead a).1 = .busError a.off ↔ bad) ∧
    ((s.memWrite a v).1 = .busError a.off ↔ bad ∨ a.off = 0x40 ∨ a.off = 0x44 ∨ 0xC0 ≤ a.off) ∧
    ((s.memRead a).1 ≠ .okay → (s.memRead a).2.1 = 0 ∧ (s.memRead a).2.2 = s) ∧
    ((s.memWrite a v).1 ≠ .okay → (s.memWrite a v).2 = s)

/-- R252 and R253: a write to CMD, CONFIG, KEY, IV, CTRIN or DIN while BUSY = 1 is answered OKAY, sets BWERR and changes nothing
else; the command in progress goes on as if it had not been written. -/
def Obligations.WritesWhileBusyAreDropped : Prop :=
  ∀ (s : State) (r : Reg) (v : Word), s.busy = true → isResultReg r = false → r ≠ .STATUS →
    ∃ t, s.memWrite (wordAccess r) v = (.okay, t) ∧ t.BWERR = true ∧
      s.sameInputs t ∧ t.DOUT = s.DOUT ∧ s.sameEngine t ∧ t.DVALID = s.DVALID ∧ t.ERR = s.ERR ∧ s.sameInternal t ∧
      s.sameAround t ∧ t.tick = { s.tick with BWERR := true }

/-- R22: a write to CONFIG while BUSY = 0 keeps bits [23:0] and the reserved byte reads 0 afterwards; while BUSY = 1 it is
dropped and sets BWERR. -/
def Obligations.ConfigWriteMasksReservedBits : Prop :=
  ∀ (s : State) (v : Word),
    let t := (s.memWrite (wordAccess .CONFIG) v).2
    (s.busy = false → (t.readReg .CONFIG).toNat = v.toNat % 2 ^ 24 ∧ (t.readReg .CONFIG).extractLsb' 24 8 = 0 ∧
      t.BWERR = s.BWERR) ∧
    (s.busy = true → t.readReg .CONFIG = s.readReg .CONFIG ∧ t.BWERR = true)

/-- R251: every write to CMD while BUSY = 0 is accepted, even an illegal word: CMDL, FSM (so BUSY = 1), DVALID and ERR are
written and no other state changes. -/
def Obligations.AcceptanceWritesFourThings : Prop :=
  ∀ (s : State) (v : Word), s.busy = false →
    ∃ t, s.memWrite (wordAccess .CMD) v = (.okay, t) ∧
      t.CMDL = v ∧ t.FSM = .DECODE ∧ t.busy = true ∧ t.DVALID = false ∧ t.ERR = .NONE ∧
      s.sameInputs t ∧ t.DOUT = s.DOUT ∧ s.sameEngine t ∧ t.BWERR = s.BWERR ∧
      t.DRI = s.DRI ∧ t.QRI = s.QRI ∧ t.X = s.X ∧ t.KW = s.KW ∧ t.staged = s.staged ∧ s.sameAround t

/-- R72: a write to an input register while BUSY = 0 is idempotent; a write to CMD is not: the second one is dropped. -/
def Obligations.InputWritesAreIdempotent : Prop :=
  ∀ (s : State) (r : Reg) (v : Word), s.busy = false → isResultReg r = false → r ≠ .STATUS →
    (r ≠ .CMD → (s.writeReg r v).writeReg r v = s.writeReg r v ∧ (s.writeReg r v).readReg r =
      (if r = .CONFIG then v &&& 0x00FFFFFF else v)) ∧
    (r = .CMD → (s.writeReg r v).BWERR = s.BWERR ∧ ((s.writeReg r v).writeReg r v).BWERR = true)

/-- R262 and R263: a host that keeps clear of the hazards never reads a draw, never meets a bus error, never loses a write
and never sets BWERR. -/
def Obligations.DisciplinedHostIsSafe : Prop :=
  ∀ (s : State) (a : Access) (v : Word),
    (s.disciplined (.read a) = true → ∃ r, regAt a.off = some r ∧ s.memRead a = (.okay, s.readReg r, s)) ∧
    (s.disciplined (.write a v) = true → (s.memWrite a v).1 = .okay ∧
      ((s.memWrite a v).2.BWERR = true → s.BWERR = true) ∧
      (∀ r, regAt a.off = some r → r ≠ .STATUS → r ≠ .CMD → (s.memWrite a v).2 = s.writeInput r v))

/-! ### The command FSM (70_reset_and_hazards.md) -/

/-- R256 and R257: the reference sequence, run state by state from DECODE, ends after the number of states R269 lists in exactly
the state the command's meaning gives, for every command, valid or failing (the model's readings: the
core's moves, log 6; the next state of BLK_ROUND, log 19; the number of states, from the informative R269, log 22). -/
def Obligations.ReferenceSequenceIsTheCommand : Prop :=
  ∀ (s : State) (i : Instr), s.FSM = .DECODE → decode s.CMDL = .ok i → (s.INITD = true → legalRounds s.RND) →
    exec i s = .next (s.ticks (s.referenceClocks i)) ∧
    ∀ n, n < s.referenceClocks i → (s.ticks n).busy = true

/-- R258: from every busy state, reachable or not, the core is idle after finitely many steps, state by state or
merged into one (log 6). -/
def Obligations.EveryCommandFinishes : Prop :=
  ∀ s : State, s.busy = true →
    (∃ n, 1 ≤ n ∧ n ≤ longestCommand ∧ (s.ticks n).busy = false) ∧
    ∃ t, coreTurn .run s = .next t ∧ t.busy = false

/-- R256 and R258: wherever on its way a command is, the rest of the reference sequence, run state by state or in one core step,
ends in exactly the state the whole command gives from here (log 6). -/
def Obligations.RestOfTheSequenceIsTheCommand : Prop :=
  ∀ s : State, s.Inv → s.busy = true →
    coreTurn .run s = runCommand s ∧ ∃ n, 1 ≤ n ∧ n ≤ longestCommand ∧ runCommand s = .next (s.ticks n)

/-- R259: until the step that returns the core to IDLE, no state of the FSM changes anything the host can read with a
defined value: no partial command is visible. -/
def Obligations.NoPartialCommandIsVisible : Prop :=
  ∀ s : State, s.tick.busy = true → s.sameVisible s.tick ∧ s.sameAround s.tick ∧ s.tick.draws = s.draws

/-- R79 and R253: while a command runs, a host transaction, at an offset or at an address (log 1), and a state of the FSM may
come in either order: nothing the host writes reaches the command, and nothing the command does reaches the host's answer. For
a read of DOUT, CTR_LO or CTR_HI the two orders give one reply only because the model numbers its draws by State.draws (log 4,
DESIGN CHOICE): R254 puts draws under no law. -/
def Obligations.HostAndCoreCommuteWhileBusy : Prop :=
  ∀ (s : State) (tx : Transaction), s.busy = true → s.tick.busy = true →
    (s.busTransaction tx).tick = s.tick.busTransaction tx ∧ ∀ c, (s.busCycle c).tick = s.tick.busCycle c

/-! ### The whole machine -/

/-- A step runs the decoded command: with a command accepted and the CORE to move, or nobody else's turn placed, the step is
`exec` of the command in CMDL, taken after the turn is used up (R251, R255, R258; turns and merged core steps: logs 5, 6). -/
def Obligations.StepRunsTheAcceptedCommand : Prop :=
  ∀ (s : State) (i : Instr), s.FSM = .DECODE → decode s.CMDL = .ok i →
    (∀ rest, s.turns = .core .run :: rest → step s = exec i { s with turns := rest }) ∧
    (s.turns = [] → step s = exec i s)

/-- A step is the move of the agent whose turn comes first (R18); a transaction is placed at an offset or at an address (R60,
log 1). Without a placed turn a busy core runs its command to the end, else the host program takes its next statement, else
nothing changes. The model's choices: the schedule as data and these defaults (log 5), the tick, run and stall moves of the core
(log 6), and that a program turn without a next statement and a core's turn in IDLE do nothing (log 16). -/
def Obligations.StepTakesTheFirstTurn : Prop :=
  ∀ (s : State) (rest : List Turn),
    (∀ tx, s.turns = .bus tx :: rest → step s = .next ({ s with turns := rest }.busTransaction tx)) ∧
    (∀ c, s.turns = .cycle c :: rest → step s = .next ({ s with turns := rest }.busCycle c)) ∧
    (s.turns = .program :: rest →
      step s = .next { s with turns := rest }.hostTurn ∧
      (∀ line, s.host.halted = false → s.host.program[s.host.line]? = some line →
        step s = .next ({ s with turns := rest }.hostStatement line.stmt)) ∧
      (s.host.halted = true ∨ s.host.program.length ≤ s.host.line → step s = .next { s with turns := rest })) ∧
    (s.turns = .core .tick :: rest → step s = .next { s with turns := rest }.tick) ∧
    (∀ u : State, (s.turns = .core .run :: rest ∧ u = { s with turns := rest }) ∨ (s.turns = [] ∧ s.busy = true ∧ u = s) →
      (s.FSM = .IDLE → step s = .next u) ∧
      (s.FSM = .DECODE → (∀ i, decode s.CMDL = .ok i → step s = exec i u) ∧
        ∀ e, decode s.CMDL = .error e → step s = .next u.completeIllegal) ∧
      (s.FSM ≠ .IDLE → s.FSM ≠ .DECODE → step s = .next (u.ticks longestCommand))) ∧
    (s.turns = .core .stall :: rest → step s = .next { s with turns := rest }) ∧
    (s.turns = .reset :: rest → step s = .next { s with turns := rest }.applyReset) ∧
    (s.turns = [] → s.busy = false →
      (∀ line, s.host.halted = false → s.host.program[s.host.line]? = some line →
        step s = .next (s.hostStatement line.stmt)) ∧
      (s.host.halted = true ∨ s.host.program.length ≤ s.host.line → step s = .next s))

/-- The invariant holds after reset (R50). -/
def Obligations.ResetMeetsTheInvariant : Prop := State.reset.Inv

/-- Every step, whoever moves, keeps the invariant: CONFIG's reserved bits read 0 (R21), an engine's round count is even
and at least 2 (R41) and its words follow the slot table (R157, R158), DVALID and ERR are 0 while BUSY (R254), and only a valid
command's results are ever staged (R257). The constants of the slot table are those of log 8. -/
def Obligations.EveryStepKeepsTheInvariant : Prop :=
  ∀ s t : State, s.Inv → step s = .next t → t.Inv

/-- No step stops the machine (R230, R258): every state has a next one. -/
def Obligations.EveryStateHasANextState : Prop := ∀ s : State, ∃ t, step s = .next t

/-- R250: a reset, whatever runs, gives every piece of the core's state the value R50 lists (it lists none for X, CMDL, DRI and
QRI), and leaves the host and the schedule alone (the model's choice: log 10). -/
def Obligations.ResetAbortsEverything : Prop :=
  ∀ (s : State) (rest : List Turn), s.turns = .reset :: rest →
    ∃ t, step s = .next t ∧
      t.CONFIG = 0x00080820 ∧ t.statusWord = 0x00000000 ∧ (∀ k : Fin 8, t.KEY[k] = 0) ∧ (∀ k : Fin 2, t.IV[k] = 0) ∧
      t.CTRIN_LO = 0 ∧ t.CTRIN_HI = 0 ∧ t.readReg .CTR_LO = 0 ∧ t.readReg .CTR_HI = 0 ∧
      (∀ k : Fin 16, t.DIN[k] = 0 ∧ t.DOUT[k] = 0 ∧ t.S[k] = 0) ∧ t.RND = 0 ∧ t.INITD = false ∧ t.K256 = false ∧
      t.FSM = .IDLE ∧ t.host = s.host ∧ t.replies = s.replies ∧ t.turns = rest

/-- R20 and R53: no move of the host, at an offset, at an address (log 1) or by its program, changes the engine or DOUT; the host
changes engine state only through commands. -/
def Obligations.HostMovesKeepTheEngine : Prop :=
  ∀ (s t : State) (turn : Turn), (turn = .program ∨ (∃ tx, turn = .bus tx) ∨ ∃ c, turn = .cycle c) →
    takeTurn turn s = .next t → s.sameEngine t ∧ t.DOUT = s.DOUT ∧ t.X = s.X ∧ t.staged = s.staged

/-- R42: in any step INITD goes from 1 to 0 only by reset, and from 0 to 1 only by the core step that completes an INIT
successfully. -/
def Obligations.OnlyInitMakesAnEngine : Prop :=
  ∀ (s t : State) (turn : Turn), s.Inv → takeTurn turn s = .next t →
    (s.INITD = true → t.INITD = false → turn = .reset) ∧
    (s.INITD = false → t.INITD = true → (∃ m, turn = .core m) ∧ s.busy = true ∧ t.busy = false ∧
      decode s.CMDL = .ok .init ∧ s.initCheck = .NONE ∧ t.ERR = .NONE ∧ t.counter = 0)

/-- R27: in any step BWERR goes from 0 to 1 only by a host write, while BUSY = 1, to a writable register other than STATUS, and from
1 to 0 only by a host write to STATUS with bit 3 set or by reset, whether the write is a transaction placed at an offset or at an
address (log 1), or the statement of the host program; no core step and no read changes it. -/
def Obligations.BwerrIsSticky : Prop :=
  ∀ (s t : State) (turn : Turn), takeTurn turn s = .next t →
    (s.BWERR = false → t.BWERR = true → s.busy = true ∧ ∃ r v, isResultReg r = false ∧ r ≠ .STATUS ∧
      ((∃ a, (turn = .bus (.write a v) ∨ turn = .cycle (.write (atAddress a) v)) ∧ isWordAccess a = true ∧
          regAt a.off = some r) ∨
        (turn = .program ∧ ∃ line, s.host.program[s.host.line]? = some line ∧ line.stmt = .wr r v))) ∧
    (s.BWERR = true → t.BWERR = false → turn = .reset ∨ ∃ v : Word, v.getLsbD 3 = true ∧
      ((∃ a, (turn = .bus (.write a v) ∨ turn = .cycle (.write (atAddress a) v)) ∧ isWordAccess a = true ∧
          regAt a.off = some .STATUS) ∨
        (turn = .program ∧ ∃ line, s.host.program[s.host.line]? = some line ∧ line.stmt = .wr .STATUS v))) ∧
    (∀ m, turn = .core m → t.BWERR = s.BWERR) ∧
    (∀ a, turn = .bus (.read a) → t.BWERR = s.BWERR) ∧
    (∀ b, turn = .cycle (.read b) → t.BWERR = s.BWERR) ∧
    (turn = .reset → t.BWERR = false)

/-- R26 and R38: in any step DVALID is set only by the core step that completes a PROCESS 64 on an initialized engine, with DOUT
its output block (R173) and the counter advanced by one, and cleared only by reset and by the host move that accepts a command
(R251); DOUT changes in no step but such a completion and a reset. -/
def Obligations.OnlyProcessWritesTheOutput : Prop :=
  ∀ (s t : State) (turn : Turn), s.Inv → takeTurn turn s = .next t →
    (s.DVALID = false → t.DVALID = true →
      (∃ m, turn = .core m) ∧ s.busy = true ∧ t.busy = false ∧ decode s.CMDL = .ok (.process 64) ∧ s.INITD = true ∧
      t.ERR = .NONE ∧ t.DOUT = combineWords s.DIN (blockFn s.S s.RND) ∧ t.counter = s.counter + 1) ∧
    (s.DVALID = true → t.DVALID = false →
      turn = .reset ∨ ((turn = .program ∨ (∃ a v, turn = .bus (.write a v)) ∨ ∃ b v, turn = .cycle (.write b v)) ∧
        s.busy = false ∧ t.busy = true)) ∧
    (t.DOUT ≠ s.DOUT → turn = .reset ∨ (s.DVALID = false ∧ t.DVALID = true))

/-- R228: in any step ERR changes only at acceptance (to NONE), at completion and by reset. -/
def Obligations.ErrKeepsTheLastOutcome : Prop :=
  ∀ (s t : State) (turn : Turn), takeTurn turn s = .next t → t.ERR ≠ s.ERR →
    turn = .reset ∨
    ((∃ m, turn = .core m) ∧ s.busy = true ∧ t.busy = false) ∨
    ((turn = .program ∨ (∃ a v, turn = .bus (.write a v)) ∨ ∃ b v, turn = .cycle (.write b v)) ∧
      s.busy = false ∧ t.busy = true ∧ t.ERR = .NONE)

/-- R69 and R19: an access outside the window changes nothing; one inside it is answered, and what is observed is the response and
the data of MemRead, or the response of MemWrite. The model's choices: an access outside the window appends no reply (log 1), and the
observation is a list, oldest first, with the offset beside each answer (log 20). -/
def Obligations.HostObservesTheAnswers : Prop :=
  ∀ (s : State) (a : Access) (v : Word),
    (0x100 ≤ a.off → s.busTransaction (.read a) = s ∧ s.busTransaction (.write a v) = s) ∧
    (a.off < 0x100 →
      s.busTransaction (.read a) = { (s.memRead a).2.2 with
        replies := s.replies ++ [.read a.off (s.memRead a).1 (s.memRead a).2.1] } ∧
      s.busTransaction (.write a v) = { (s.memWrite a v).2 with
        replies := s.replies ++ [.write a.off (s.memWrite a v).1] })

/-- R60 and R69: the window is the 256 bytes at BASE, which is aligned to 256 bytes. A transaction at an address inside it is the
one at that offset from BASE, and is aligned exactly when the offset is; one at an address below or above it changes nothing and
is not answered. The platform chooses BASE, so this holds whatever it is; addresses are numbers without an upper bound, and an
access outside the window appends no reply (the model's choices: log 1). -/
def Obligations.WindowSitsAtBase : Prop :=
  Config.BASE % 0x100 = 0 ∧
  ∀ (s : State) (b : BusAccess) (v : Word),
    (b.addr < Config.BASE ∨ Config.BASE + 0x100 ≤ b.addr → s.busCycle (.read b) = s ∧ s.busCycle (.write b v) = s) ∧
    (Config.BASE ≤ b.addr → b.addr < Config.BASE + 0x100 → ∃ a : Access, a.off < 0x100 ∧ b.addr = Config.BASE + a.off ∧
      a.bytes = b.bytes ∧ a.lanes = b.lanes ∧ (b.addr % 4 = 0 ↔ a.off % 4 = 0) ∧
      s.busCycle (.read b) = s.busTransaction (.read a) ∧ s.busCycle (.write b v) = s.busTransaction (.write a v)) ∧
    ∀ r : Reg, s.busCycle (.read ⟨Config.BASE + regOffset r, 4, 0xF⟩) = s.busTransaction (.read (wordAccess r)) ∧
      s.busCycle (.write ⟨Config.BASE + regOffset r, 4, 0xF⟩ v) = s.busTransaction (.write (wordAccess r) v)

/-- R100: what a statement of the host assembly does: `wr` and `rd` are one transaction each, `beq` and `bne` go to the label's line
or the next one, `halt` ends the program; the last three issue no transaction. The host's turn is the statement of the line its
running program is at. The model's choices: numbered labels and temporaries (log 11), an ended program's turn does nothing (log 16). -/
def Obligations.HostStatementsDoTheirTransaction : Prop :=
  ∀ (s : State), tempsCanonical s.host.temps →
    (∀ r v, s.hostStatement (.wr r v) =
      { s.busTransaction (.write (wordAccess r) v) with host := { s.host with line := s.host.line + 1 } }) ∧
    (∀ r n, ∃ temps, s.hostStatement (.rd r n) =
        { s.busTransaction (.read (wordAccess r)) with
          host := { s.host with line := s.host.line + 1, temps := temps } } ∧
      tempsCanonical temps ∧ tempGet temps n = (s.memRead (wordAccess r)).2.1 ∧
      ∀ m, m ≠ n → tempGet temps m = tempGet s.host.temps m) ∧
    (∀ n mask value label, s.hostStatement (.beq n mask value label) =
      { s with host := { s.host with
        line := (if tempGet s.host.temps n &&& mask = value then labelLine s.host.program label else s.host.line + 1) } }) ∧
    (∀ n mask value label, s.hostStatement (.bne n mask value label) =
      { s with host := { s.host with
        line := (if tempGet s.host.temps n &&& mask ≠ value then labelLine s.host.program label else s.host.line + 1) } }) ∧
    (s.hostStatement .halt = { s with host := { s.host with halted := true } }) ∧
    (∀ line, s.host.halted = false → s.host.program[s.host.line]? = some line → s.hostTurn = s.hostStatement line.stmt) ∧
    (s.host.halted = true ∨ s.host.program.length ≤ s.host.line → s.hostTurn = s)

/-- R101: the expansion of each pseudo-instruction; the command words are the encodings of the commands, and the word of CFG is
the one whose fields INIT reads. -/
def Obligations.PseudoInstructionsExpand : Prop :=
  asmInit = [⟨[], .wr .CMD 0x00000001⟩] ∧ asmSetctr = [⟨[], .wr .CMD 0x00000003⟩] ∧
  encode .init = 0x00000001 ∧ encode .setctr = 0x00000003 ∧
  (∀ n : BitVec 8, asmProcess n = [⟨[], .wr .CMD ((n.setWidth 32 <<< 8) ||| 0x00000002)⟩] ∧
    encode (.process (n.setWidth 32)) = (n.setWidth 32 <<< 8) ||| 0x00000002) ∧
  asmProcessBlock = [⟨[], .wr .CMD 0x00004002⟩] ∧
  (∀ klen ivlen rounds : BitVec 8, asmCfg klen ivlen rounds =
    [⟨[], .wr .CONFIG ((rounds.setWidth 32 <<< 16) ||| (ivlen.setWidth 32 <<< 8) ||| klen.setWidth 32)⟩]) ∧
  (∀ (klen ivlen rounds : BitVec 8) (s : State),
    s.CONFIG = (rounds.setWidth 32 <<< 16) ||| (ivlen.setWidth 32 <<< 8) ||| klen.setWidth 32 →
    s.klen = klen.setWidth 32 ∧ s.ivlen = ivlen.setWidth 32 ∧ s.rounds = rounds.setWidth 32) ∧
  asmCfg 32 8 20 = [⟨[], .wr .CONFIG 0x00140820⟩] ∧ asmCfg 16 8 8 = [⟨[], .wr .CONFIG 0x00080810⟩] ∧
  (∀ w, asmWait w = [⟨[w], .rd .STATUS 0⟩, ⟨[], .bne 0 0x1 0x0 w⟩]) ∧
  asmClrbw = [⟨[], .wr .STATUS 0x00000008⟩]

end
end

