-- ==== Sys2Proof/Laws/Datapath.lean ====
section
/-! SUPPORT. What each datapath unit computes, in the terms proofs use (40_datapath.md, 43_counter.md). -/

namespace Sys2Proof.Machine

/-- The adder is addition of bit vectors (40_datapath.md R120). -/
theorem add32_eq_add (a b : Word) : add32 a b = a + b := by
  apply BitVec.eq_of_toNat_eq
  simp [add32]

/-- The low counter word wraps exactly from 0xFFFFFFFF (43_counter.md R192). -/
theorem add32_one_eq_zero_iff (a : Word) : add32 a 1 = 0 ↔ a = 0xFFFFFFFF := by
  rw [add32_eq_add]
  constructor
  · intro h
    bv_omega
  · rintro rfl
    decide

/-- Word m after a quarter-round in place (40_datapath.md R125). -/
theorem qrApply_getElem (x : Block) (n : Lanes) (m : Fin 16) :
    (qrApply x n)[m] =
      if n.l = m then (qr (n.read x)).d else if n.k = m then (qr (n.read x)).c
      else if n.j = m then (qr (n.read x)).b else if n.i = m then (qr (n.read x)).a else x[m] := by
  simp only [qrApply, Lanes.write, Fin.getElem_fin, Vector.getElem_set, Fin.ext_iff]

/-- One double-round more, at the end (40_datapath.md R130). -/
theorem doubleRounds_succ (n : Nat) (x : Block) : doubleRounds (n + 1) x = doubleRound (doubleRounds n x) := by
  induction n generalizing x with
  | zero => rfl
  | succ n ih => rw [doubleRounds, ih]; rfl

/-- All eight quarter-rounds in a row are a double-round (40_datapath.md R129). -/
theorem applyLanes_all (x : Block) :
    applyLanes ((columnLanes ++ diagonalLanes).toList.take 8) x = doubleRound x := by
  have h : (columnLanes ++ diagonalLanes).toList.take 8 = columnLanes.toList ++ diagonalLanes.toList := by decide
  rw [h]
  unfold doubleRound diagPass colPass applyLanes
  rw [List.foldl_append]

/-- Lane i of a word, as a number (20_memory.md R62). -/
theorem laneByte_toNat (w : Word) (i : Fin 4) : (laneByte w i).toNat = w.toNat / 256 ^ i.val % 256 := by
  simp [laneByte, Nat.shiftRight_eq_div_pow, Nat.pow_mul]

/-- Byte j of a serialized block (40_datapath.md R132). -/
theorem serialize_getElem (kw : Block) (j : Nat) (hj : j < 64) :
    (serialize kw)[j] = laneByte (kw[j / 4]'(by omega)) ⟨j % 4, by omega⟩ := by
  simp [serialize, wordOfByte, laneOfByte]

/-- `le_word` as concatenation (00_scope.md R14). -/
theorem leWord_eq_append (b : Vector Byte 4) : leWord b = (b[3] ++ b[2] ++ b[1] ++ b[0] : BitVec 32) := by
  apply BitVec.eq_of_getLsbD_eq
  intro i hi
  simp only [leWord, BitVec.getLsbD_or, BitVec.getLsbD_shiftLeft, BitVec.getLsbD_setWidth, BitVec.getLsbD_append]
  interval_cases i <;> simp

/-- A word is `le_word` of its four lanes (00_scope.md R14). -/
theorem leWord_laneBytes (w : Word) : leWord #v[laneByte w 0, laneByte w 1, laneByte w 2, laneByte w 3] = w := by
  rw [leWord_eq_append]
  apply BitVec.eq_of_getLsbD_eq
  intro i hi
  simp only [BitVec.getLsbD_append]
  interval_cases i <;> simp [laneByte]

/-- Packing undoes serializing (42_process.md R173, step 5). -/
theorem packWords_serialize (w : Block) : packWords (serialize w) = w := by
  ext k hk : 1
  simp only [packWords, Vector.getElem_ofFn, serialize_getElem]
  conv => rhs; rw [← leWord_laneBytes w[k]]
  simp [show 4 * k / 4 = k by omega, show (4 * k + 1) / 4 = k by omega, show (4 * k + 2) / 4 = k by omega,
    show (4 * k + 3) / 4 = k by omega, show (4 * k + 1) % 4 = 1 by omega, show (4 * k + 2) % 4 = 2 by omega,
    show (4 * k + 3) % 4 = 3 by omega]

/-- Combining bytes is combining words (40_datapath.md R133). -/
theorem combine_serialize (din kw : Block) : combine (serialize din) (serialize kw) = serialize (combineWords din kw) := by
  ext j hj : 1
  simp [combine, serialize_getElem, combineWords, xor32, laneByte, BitVec.extractLsb'_xor]

end Sys2Proof.Machine
end

