-- ==== Sys2Proof/Laws/State.lean ====
section
/-! SUPPORT. One lemma per field per update of the state, each true by definition, so that no later proof unfolds a record
update. -/

namespace Sys2Proof.Machine

variable (s : State)

/-! `accept` (70_reset_and_hazards.md R251) -/

@[simp] theorem accept_CONFIG (v : Word) : (s.accept v).CONFIG = s.CONFIG := rfl
@[simp] theorem accept_KEY (v : Word) : (s.accept v).KEY = s.KEY := rfl
@[simp] theorem accept_IV (v : Word) : (s.accept v).IV = s.IV := rfl
@[simp] theorem accept_CTRIN_LO (v : Word) : (s.accept v).CTRIN_LO = s.CTRIN_LO := rfl
@[simp] theorem accept_CTRIN_HI (v : Word) : (s.accept v).CTRIN_HI = s.CTRIN_HI := rfl
@[simp] theorem accept_DIN (v : Word) : (s.accept v).DIN = s.DIN := rfl
@[simp] theorem accept_DOUT (v : Word) : (s.accept v).DOUT = s.DOUT := rfl
@[simp] theorem accept_DVALID (v : Word) : (s.accept v).DVALID = false := rfl
@[simp] theorem accept_BWERR (v : Word) : (s.accept v).BWERR = s.BWERR := rfl
@[simp] theorem accept_ERR (v : Word) : (s.accept v).ERR = .NONE := rfl
@[simp] theorem accept_S (v : Word) : (s.accept v).S = s.S := rfl
@[simp] theorem accept_RND (v : Word) : (s.accept v).RND = s.RND := rfl
@[simp] theorem accept_INITD (v : Word) : (s.accept v).INITD = s.INITD := rfl
@[simp] theorem accept_K256 (v : Word) : (s.accept v).K256 = s.K256 := rfl
@[simp] theorem accept_FSM (v : Word) : (s.accept v).FSM = .DECODE := rfl
@[simp] theorem accept_CMDL (v : Word) : (s.accept v).CMDL = v := rfl
@[simp] theorem accept_DRI (v : Word) : (s.accept v).DRI = s.DRI := rfl
@[simp] theorem accept_QRI (v : Word) : (s.accept v).QRI = s.QRI := rfl
@[simp] theorem accept_X (v : Word) : (s.accept v).X = s.X := rfl
@[simp] theorem accept_KW (v : Word) : (s.accept v).KW = s.KW := rfl
@[simp] theorem accept_staged (v : Word) : (s.accept v).staged = s.staged := rfl
@[simp] theorem accept_host (v : Word) : (s.accept v).host = s.host := rfl
@[simp] theorem accept_replies (v : Word) : (s.accept v).replies = s.replies := rfl
@[simp] theorem accept_turns (v : Word) : (s.accept v).turns = s.turns := rfl
@[simp] theorem accept_draws (v : Word) : (s.accept v).draws = s.draws := rfl

/-! `dropWrite` (70_reset_and_hazards.md R252, R253) -/

@[simp] theorem dropWrite_CONFIG : (s.dropWrite).CONFIG = s.CONFIG := rfl
@[simp] theorem dropWrite_KEY : (s.dropWrite).KEY = s.KEY := rfl
@[simp] theorem dropWrite_IV : (s.dropWrite).IV = s.IV := rfl
@[simp] theorem dropWrite_CTRIN_LO : (s.dropWrite).CTRIN_LO = s.CTRIN_LO := rfl
@[simp] theorem dropWrite_CTRIN_HI : (s.dropWrite).CTRIN_HI = s.CTRIN_HI := rfl
@[simp] theorem dropWrite_DIN : (s.dropWrite).DIN = s.DIN := rfl
@[simp] theorem dropWrite_DOUT : (s.dropWrite).DOUT = s.DOUT := rfl
@[simp] theorem dropWrite_DVALID : (s.dropWrite).DVALID = s.DVALID := rfl
@[simp] theorem dropWrite_BWERR : (s.dropWrite).BWERR = true := rfl
@[simp] theorem dropWrite_ERR : (s.dropWrite).ERR = s.ERR := rfl
@[simp] theorem dropWrite_S : (s.dropWrite).S = s.S := rfl
@[simp] theorem dropWrite_RND : (s.dropWrite).RND = s.RND := rfl
@[simp] theorem dropWrite_INITD : (s.dropWrite).INITD = s.INITD := rfl
@[simp] theorem dropWrite_K256 : (s.dropWrite).K256 = s.K256 := rfl
@[simp] theorem dropWrite_FSM : (s.dropWrite).FSM = s.FSM := rfl
@[simp] theorem dropWrite_CMDL : (s.dropWrite).CMDL = s.CMDL := rfl
@[simp] theorem dropWrite_DRI : (s.dropWrite).DRI = s.DRI := rfl
@[simp] theorem dropWrite_QRI : (s.dropWrite).QRI = s.QRI := rfl
@[simp] theorem dropWrite_X : (s.dropWrite).X = s.X := rfl
@[simp] theorem dropWrite_KW : (s.dropWrite).KW = s.KW := rfl
@[simp] theorem dropWrite_staged : (s.dropWrite).staged = s.staged := rfl
@[simp] theorem dropWrite_host : (s.dropWrite).host = s.host := rfl
@[simp] theorem dropWrite_replies : (s.dropWrite).replies = s.replies := rfl
@[simp] theorem dropWrite_turns : (s.dropWrite).turns = s.turns := rfl
@[simp] theorem dropWrite_draws : (s.dropWrite).draws = s.draws := rfl

/-! `toIdle` (10_state.md R44, R46) -/

@[simp] theorem toIdle_CONFIG : (s.toIdle).CONFIG = s.CONFIG := rfl
@[simp] theorem toIdle_KEY : (s.toIdle).KEY = s.KEY := rfl
@[simp] theorem toIdle_IV : (s.toIdle).IV = s.IV := rfl
@[simp] theorem toIdle_CTRIN_LO : (s.toIdle).CTRIN_LO = s.CTRIN_LO := rfl
@[simp] theorem toIdle_CTRIN_HI : (s.toIdle).CTRIN_HI = s.CTRIN_HI := rfl
@[simp] theorem toIdle_DIN : (s.toIdle).DIN = s.DIN := rfl
@[simp] theorem toIdle_DOUT : (s.toIdle).DOUT = s.DOUT := rfl
@[simp] theorem toIdle_DVALID : (s.toIdle).DVALID = s.DVALID := rfl
@[simp] theorem toIdle_BWERR : (s.toIdle).BWERR = s.BWERR := rfl
@[simp] theorem toIdle_ERR : (s.toIdle).ERR = s.ERR := rfl
@[simp] theorem toIdle_S : (s.toIdle).S = s.S := rfl
@[simp] theorem toIdle_RND : (s.toIdle).RND = s.RND := rfl
@[simp] theorem toIdle_INITD : (s.toIdle).INITD = s.INITD := rfl
@[simp] theorem toIdle_K256 : (s.toIdle).K256 = s.K256 := rfl
@[simp] theorem toIdle_FSM : (s.toIdle).FSM = .IDLE := rfl
@[simp] theorem toIdle_CMDL : (s.toIdle).CMDL = Config.freeCMDL s.draws := rfl
@[simp] theorem toIdle_DRI : (s.toIdle).DRI = Config.freeDRI s.draws := rfl
@[simp] theorem toIdle_QRI : (s.toIdle).QRI = Config.freeQRI s.draws := rfl
@[simp] theorem toIdle_X : (s.toIdle).X = Config.freeX s.draws := rfl
@[simp] theorem toIdle_KW : (s.toIdle).KW = Config.freeKW s.draws := rfl
@[simp] theorem toIdle_staged : (s.toIdle).staged = Staged.nothing := rfl
@[simp] theorem toIdle_host : (s.toIdle).host = s.host := rfl
@[simp] theorem toIdle_replies : (s.toIdle).replies = s.replies := rfl
@[simp] theorem toIdle_turns : (s.toIdle).turns = s.turns := rfl
@[simp] theorem toIdle_draws : (s.toIdle).draws = s.draws + 1 := rfl

/-! `commit` (70_reset_and_hazards.md R257) -/

@[simp] theorem commit_CONFIG (st : Staged) : (s.commit st).CONFIG = s.CONFIG := rfl
@[simp] theorem commit_KEY (st : Staged) : (s.commit st).KEY = s.KEY := rfl
@[simp] theorem commit_IV (st : Staged) : (s.commit st).IV = s.IV := rfl
@[simp] theorem commit_CTRIN_LO (st : Staged) : (s.commit st).CTRIN_LO = s.CTRIN_LO := rfl
@[simp] theorem commit_CTRIN_HI (st : Staged) : (s.commit st).CTRIN_HI = s.CTRIN_HI := rfl
@[simp] theorem commit_DIN (st : Staged) : (s.commit st).DIN = s.DIN := rfl
@[simp] theorem commit_DVALID (st : Staged) : (s.commit st).DVALID = (s.DVALID || st.dout.isSome) := rfl
@[simp] theorem commit_BWERR (st : Staged) : (s.commit st).BWERR = s.BWERR := rfl
@[simp] theorem commit_ERR (st : Staged) : (s.commit st).ERR = st.code := rfl
@[simp] theorem commit_S (st : Staged) : (s.commit st).S = st.commitS s.S := rfl
@[simp] theorem commit_INITD (st : Staged) : (s.commit st).INITD = (s.INITD || st.engine.isSome) := rfl
@[simp] theorem commit_FSM (st : Staged) : (s.commit st).FSM = .IDLE := rfl
@[simp] theorem commit_CMDL (st : Staged) : (s.commit st).CMDL = Config.freeCMDL s.draws := rfl
@[simp] theorem commit_DRI (st : Staged) : (s.commit st).DRI = Config.freeDRI s.draws := rfl
@[simp] theorem commit_QRI (st : Staged) : (s.commit st).QRI = Config.freeQRI s.draws := rfl
@[simp] theorem commit_X (st : Staged) : (s.commit st).X = Config.freeX s.draws := rfl
@[simp] theorem commit_KW (st : Staged) : (s.commit st).KW = Config.freeKW s.draws := rfl
@[simp] theorem commit_staged (st : Staged) : (s.commit st).staged = Staged.nothing := rfl
@[simp] theorem commit_host (st : Staged) : (s.commit st).host = s.host := rfl
@[simp] theorem commit_replies (st : Staged) : (s.commit st).replies = s.replies := rfl
@[simp] theorem commit_turns (st : Staged) : (s.commit st).turns = s.turns := rfl
@[simp] theorem commit_draws (st : Staged) : (s.commit st).draws = s.draws + 1 := rfl

@[simp] theorem commit_RND (st : Staged) : (s.commit st).RND = (st.engine.map EngineImage.RND).getD s.RND := by
  cases h : st.engine <;> simp [State.commit, h]
@[simp] theorem commit_K256 (st : Staged) : (s.commit st).K256 = (st.engine.map EngineImage.K256).getD s.K256 := by
  cases h : st.engine <;> simp [State.commit, h]
@[simp] theorem commit_DOUT (st : Staged) : (s.commit st).DOUT = st.dout.getD s.DOUT := by
  cases h : st.dout <;> simp [State.commit, h]

/-! `fail` (60_exceptions.md R211): only ERR, and what the return to IDLE leaves unspecified -/

@[simp] theorem fail_CONFIG (e : ErrCode) : (s.fail e).CONFIG = s.CONFIG := rfl
@[simp] theorem fail_KEY (e : ErrCode) : (s.fail e).KEY = s.KEY := rfl
@[simp] theorem fail_IV (e : ErrCode) : (s.fail e).IV = s.IV := rfl
@[simp] theorem fail_CTRIN_LO (e : ErrCode) : (s.fail e).CTRIN_LO = s.CTRIN_LO := rfl
@[simp] theorem fail_CTRIN_HI (e : ErrCode) : (s.fail e).CTRIN_HI = s.CTRIN_HI := rfl
@[simp] theorem fail_DIN (e : ErrCode) : (s.fail e).DIN = s.DIN := rfl
@[simp] theorem fail_DOUT (e : ErrCode) : (s.fail e).DOUT = s.DOUT := rfl
@[simp] theorem fail_BWERR (e : ErrCode) : (s.fail e).BWERR = s.BWERR := rfl
@[simp] theorem fail_ERR (e : ErrCode) : (s.fail e).ERR = e := rfl
@[simp] theorem fail_S (e : ErrCode) : (s.fail e).S = s.S := rfl
@[simp] theorem fail_RND (e : ErrCode) : (s.fail e).RND = s.RND := rfl
@[simp] theorem fail_K256 (e : ErrCode) : (s.fail e).K256 = s.K256 := rfl
@[simp] theorem fail_FSM (e : ErrCode) : (s.fail e).FSM = .IDLE := rfl
@[simp] theorem fail_CMDL (e : ErrCode) : (s.fail e).CMDL = Config.freeCMDL s.draws := rfl
@[simp] theorem fail_DRI (e : ErrCode) : (s.fail e).DRI = Config.freeDRI s.draws := rfl
@[simp] theorem fail_QRI (e : ErrCode) : (s.fail e).QRI = Config.freeQRI s.draws := rfl
@[simp] theorem fail_X (e : ErrCode) : (s.fail e).X = Config.freeX s.draws := rfl
@[simp] theorem fail_KW (e : ErrCode) : (s.fail e).KW = Config.freeKW s.draws := rfl
@[simp] theorem fail_staged (e : ErrCode) : (s.fail e).staged = Staged.nothing := rfl
@[simp] theorem fail_host (e : ErrCode) : (s.fail e).host = s.host := rfl
@[simp] theorem fail_replies (e : ErrCode) : (s.fail e).replies = s.replies := rfl
@[simp] theorem fail_turns (e : ErrCode) : (s.fail e).turns = s.turns := rfl
@[simp] theorem fail_draws (e : ErrCode) : (s.fail e).draws = s.draws + 1 := rfl

@[simp] theorem fail_DVALID (e : ErrCode) : (s.fail e).DVALID = s.DVALID := Bool.or_false _
@[simp] theorem fail_INITD (e : ErrCode) : (s.fail e).INITD = s.INITD := Bool.or_false _

/-! `logReply` (00_scope.md R19) -/

@[simp] theorem logReply_CONFIG (r : Reply) : (s.logReply r).CONFIG = s.CONFIG := rfl
@[simp] theorem logReply_KEY (r : Reply) : (s.logReply r).KEY = s.KEY := rfl
@[simp] theorem logReply_IV (r : Reply) : (s.logReply r).IV = s.IV := rfl
@[simp] theorem logReply_CTRIN_LO (r : Reply) : (s.logReply r).CTRIN_LO = s.CTRIN_LO := rfl
@[simp] theorem logReply_CTRIN_HI (r : Reply) : (s.logReply r).CTRIN_HI = s.CTRIN_HI := rfl
@[simp] theorem logReply_DIN (r : Reply) : (s.logReply r).DIN = s.DIN := rfl
@[simp] theorem logReply_DOUT (r : Reply) : (s.logReply r).DOUT = s.DOUT := rfl
@[simp] theorem logReply_DVALID (r : Reply) : (s.logReply r).DVALID = s.DVALID := rfl
@[simp] theorem logReply_BWERR (r : Reply) : (s.logReply r).BWERR = s.BWERR := rfl
@[simp] theorem logReply_ERR (r : Reply) : (s.logReply r).ERR = s.ERR := rfl
@[simp] theorem logReply_S (r : Reply) : (s.logReply r).S = s.S := rfl
@[simp] theorem logReply_RND (r : Reply) : (s.logReply r).RND = s.RND := rfl
@[simp] theorem logReply_INITD (r : Reply) : (s.logReply r).INITD = s.INITD := rfl
@[simp] theorem logReply_K256 (r : Reply) : (s.logReply r).K256 = s.K256 := rfl
@[simp] theorem logReply_FSM (r : Reply) : (s.logReply r).FSM = s.FSM := rfl
@[simp] theorem logReply_CMDL (r : Reply) : (s.logReply r).CMDL = s.CMDL := rfl
@[simp] theorem logReply_DRI (r : Reply) : (s.logReply r).DRI = s.DRI := rfl
@[simp] theorem logReply_QRI (r : Reply) : (s.logReply r).QRI = s.QRI := rfl
@[simp] theorem logReply_X (r : Reply) : (s.logReply r).X = s.X := rfl
@[simp] theorem logReply_KW (r : Reply) : (s.logReply r).KW = s.KW := rfl
@[simp] theorem logReply_staged (r : Reply) : (s.logReply r).staged = s.staged := rfl
@[simp] theorem logReply_host (r : Reply) : (s.logReply r).host = s.host := rfl
@[simp] theorem logReply_replies (r : Reply) : (s.logReply r).replies = s.replies ++ [r] := rfl
@[simp] theorem logReply_turns (r : Reply) : (s.logReply r).turns = s.turns := rfl
@[simp] theorem logReply_draws (r : Reply) : (s.logReply r).draws = s.draws := rfl

/-! `applyReset` (70_reset_and_hazards.md R250) -/

@[simp] theorem applyReset_CONFIG : (s.applyReset).CONFIG = State.reset.CONFIG := rfl
@[simp] theorem applyReset_KEY : (s.applyReset).KEY = State.reset.KEY := rfl
@[simp] theorem applyReset_IV : (s.applyReset).IV = State.reset.IV := rfl
@[simp] theorem applyReset_CTRIN_LO : (s.applyReset).CTRIN_LO = State.reset.CTRIN_LO := rfl
@[simp] theorem applyReset_CTRIN_HI : (s.applyReset).CTRIN_HI = State.reset.CTRIN_HI := rfl
@[simp] theorem applyReset_DIN : (s.applyReset).DIN = State.reset.DIN := rfl
@[simp] theorem applyReset_DOUT : (s.applyReset).DOUT = State.reset.DOUT := rfl
@[simp] theorem applyReset_DVALID : (s.applyReset).DVALID = State.reset.DVALID := rfl
@[simp] theorem applyReset_BWERR : (s.applyReset).BWERR = State.reset.BWERR := rfl
@[simp] theorem applyReset_ERR : (s.applyReset).ERR = State.reset.ERR := rfl
@[simp] theorem applyReset_S : (s.applyReset).S = State.reset.S := rfl
@[simp] theorem applyReset_RND : (s.applyReset).RND = State.reset.RND := rfl
@[simp] theorem applyReset_INITD : (s.applyReset).INITD = State.reset.INITD := rfl
@[simp] theorem applyReset_K256 : (s.applyReset).K256 = State.reset.K256 := rfl
@[simp] theorem applyReset_FSM : (s.applyReset).FSM = State.reset.FSM := rfl
@[simp] theorem applyReset_CMDL : (s.applyReset).CMDL = State.reset.CMDL := rfl
@[simp] theorem applyReset_DRI : (s.applyReset).DRI = State.reset.DRI := rfl
@[simp] theorem applyReset_QRI : (s.applyReset).QRI = State.reset.QRI := rfl
@[simp] theorem applyReset_X : (s.applyReset).X = State.reset.X := rfl
@[simp] theorem applyReset_KW : (s.applyReset).KW = State.reset.KW := rfl
@[simp] theorem applyReset_staged : (s.applyReset).staged = State.reset.staged := rfl
@[simp] theorem applyReset_host : (s.applyReset).host = s.host := rfl
@[simp] theorem applyReset_replies : (s.applyReset).replies = s.replies := rfl
@[simp] theorem applyReset_turns : (s.applyReset).turns = s.turns := rfl
@[simp] theorem applyReset_draws : (s.applyReset).draws = s.draws := rfl

/-! `pendError` (70_reset_and_hazards.md R255) -/

@[simp] theorem pendError_CONFIG (e : ErrCode) : (s.pendError e).CONFIG = s.CONFIG := rfl
@[simp] theorem pendError_KEY (e : ErrCode) : (s.pendError e).KEY = s.KEY := rfl
@[simp] theorem pendError_IV (e : ErrCode) : (s.pendError e).IV = s.IV := rfl
@[simp] theorem pendError_CTRIN_LO (e : ErrCode) : (s.pendError e).CTRIN_LO = s.CTRIN_LO := rfl
@[simp] theorem pendError_CTRIN_HI (e : ErrCode) : (s.pendError e).CTRIN_HI = s.CTRIN_HI := rfl
@[simp] theorem pendError_DIN (e : ErrCode) : (s.pendError e).DIN = s.DIN := rfl
@[simp] theorem pendError_DOUT (e : ErrCode) : (s.pendError e).DOUT = s.DOUT := rfl
@[simp] theorem pendError_DVALID (e : ErrCode) : (s.pendError e).DVALID = s.DVALID := rfl
@[simp] theorem pendError_BWERR (e : ErrCode) : (s.pendError e).BWERR = s.BWERR := rfl
@[simp] theorem pendError_ERR (e : ErrCode) : (s.pendError e).ERR = s.ERR := rfl
@[simp] theorem pendError_S (e : ErrCode) : (s.pendError e).S = s.S := rfl
@[simp] theorem pendError_RND (e : ErrCode) : (s.pendError e).RND = s.RND := rfl
@[simp] theorem pendError_INITD (e : ErrCode) : (s.pendError e).INITD = s.INITD := rfl
@[simp] theorem pendError_K256 (e : ErrCode) : (s.pendError e).K256 = s.K256 := rfl
@[simp] theorem pendError_FSM (e : ErrCode) : (s.pendError e).FSM = .FINISH := rfl
@[simp] theorem pendError_CMDL (e : ErrCode) : (s.pendError e).CMDL = s.CMDL := rfl
@[simp] theorem pendError_DRI (e : ErrCode) : (s.pendError e).DRI = s.DRI := rfl
@[simp] theorem pendError_QRI (e : ErrCode) : (s.pendError e).QRI = s.QRI := rfl
@[simp] theorem pendError_X (e : ErrCode) : (s.pendError e).X = s.X := rfl
@[simp] theorem pendError_KW (e : ErrCode) : (s.pendError e).KW = s.KW := rfl
@[simp] theorem pendError_staged (e : ErrCode) : (s.pendError e).staged = Staged.failed e := rfl
@[simp] theorem pendError_host (e : ErrCode) : (s.pendError e).host = s.host := rfl
@[simp] theorem pendError_replies (e : ErrCode) : (s.pendError e).replies = s.replies := rfl
@[simp] theorem pendError_turns (e : ErrCode) : (s.pendError e).turns = s.turns := rfl
@[simp] theorem pendError_draws (e : ErrCode) : (s.pendError e).draws = s.draws := rfl

/-! `placeCommand`  -/

@[simp] theorem placeCommand_CONFIG (w : Word) : (s.placeCommand w).CONFIG = s.CONFIG := rfl
@[simp] theorem placeCommand_KEY (w : Word) : (s.placeCommand w).KEY = s.KEY := rfl
@[simp] theorem placeCommand_IV (w : Word) : (s.placeCommand w).IV = s.IV := rfl
@[simp] theorem placeCommand_CTRIN_LO (w : Word) : (s.placeCommand w).CTRIN_LO = s.CTRIN_LO := rfl
@[simp] theorem placeCommand_CTRIN_HI (w : Word) : (s.placeCommand w).CTRIN_HI = s.CTRIN_HI := rfl
@[simp] theorem placeCommand_DIN (w : Word) : (s.placeCommand w).DIN = s.DIN := rfl
@[simp] theorem placeCommand_DOUT (w : Word) : (s.placeCommand w).DOUT = s.DOUT := rfl
@[simp] theorem placeCommand_DVALID (w : Word) : (s.placeCommand w).DVALID = false := rfl
@[simp] theorem placeCommand_BWERR (w : Word) : (s.placeCommand w).BWERR = s.BWERR := rfl
@[simp] theorem placeCommand_ERR (w : Word) : (s.placeCommand w).ERR = .NONE := rfl
@[simp] theorem placeCommand_S (w : Word) : (s.placeCommand w).S = s.S := rfl
@[simp] theorem placeCommand_RND (w : Word) : (s.placeCommand w).RND = s.RND := rfl
@[simp] theorem placeCommand_INITD (w : Word) : (s.placeCommand w).INITD = s.INITD := rfl
@[simp] theorem placeCommand_K256 (w : Word) : (s.placeCommand w).K256 = s.K256 := rfl
@[simp] theorem placeCommand_FSM (w : Word) : (s.placeCommand w).FSM = .DECODE := rfl
@[simp] theorem placeCommand_CMDL (w : Word) : (s.placeCommand w).CMDL = w := rfl
@[simp] theorem placeCommand_DRI (w : Word) : (s.placeCommand w).DRI = s.DRI := rfl
@[simp] theorem placeCommand_QRI (w : Word) : (s.placeCommand w).QRI = s.QRI := rfl
@[simp] theorem placeCommand_X (w : Word) : (s.placeCommand w).X = s.X := rfl
@[simp] theorem placeCommand_KW (w : Word) : (s.placeCommand w).KW = s.KW := rfl
@[simp] theorem placeCommand_staged (w : Word) : (s.placeCommand w).staged = s.staged := rfl
@[simp] theorem placeCommand_host (w : Word) : (s.placeCommand w).host = s.host := rfl
@[simp] theorem placeCommand_replies (w : Word) : (s.placeCommand w).replies = s.replies := rfl
@[simp] theorem placeCommand_turns (w : Word) : (s.placeCommand w).turns = .core .run :: s.turns := rfl
@[simp] theorem placeCommand_draws (w : Word) : (s.placeCommand w).draws = s.draws := rfl

end Sys2Proof.Machine
end

