-- ==== Sys2Proof/Laws/Ops.lean ====
section
/-! SUPPORT. For each shared operation, what it can do, said once. -/

namespace Sys2Proof.Machine

/-! ### BUSY and completion -/

/-- BUSY is FSM ≠ IDLE (10_state.md R24). -/
@[simp] theorem busy_eq_true_iff (s : State) : s.busy = true ↔ s.FSM ≠ .IDLE := by simp [State.busy]

@[simp] theorem busy_eq_false_iff (s : State) : s.busy = false ↔ s.FSM = .IDLE := by simp [State.busy]

/-- A command completes in one of two ways: its check passed and its results are committed, or it failed with that check's
code. -/
theorem complete_cases (s : State) (e : ErrCode) (st : Staged) :
    (e = .NONE ∧ s.complete e st = s.commit st) ∨ (e ≠ .NONE ∧ s.complete e st = s.fail e) := by
  cases e <;> simp [State.complete]

theorem complete_NONE (s : State) (st : Staged) : s.complete .NONE st = s.commit st := rfl

theorem complete_error (s : State) {e : ErrCode} (st : Staged) (h : e ≠ .NONE) : s.complete e st = s.fail e := by
  cases e <;> first | exact absurd rfl h | rfl

/-- Committing results whose code is NONE leaves exactly these fields open to what was staged. -/
theorem commitS_nothing (S : Block) (e : ErrCode) : (Staged.failed e).commitS S = S := rfl

theorem commitS_counter (S : Block) (lo hi : Word) (c : ErrCode) (d : Option Block) :
    Staged.commitS ⟨c, none, d, some lo, some hi⟩ S = (S.set 12 lo).set 13 hi := rfl

/-! ### Checks -/

theorem processCheck_no_engine (s : State) (blen : Word) (h : s.INITD = false) :
    s.processCheck blen = .NOT_INITIALIZED := if_pos h

theorem processCheck_length (s : State) (blen : Word) (h : s.INITD = true) (hb : blen ≠ 64) :
    s.processCheck blen = .INVALID_BLOCK_LENGTH := by
  rw [State.processCheck, if_neg (by simp [h]), if_pos hb]

theorem processCheck_ok (s : State) (h : s.INITD = true) : s.processCheck 64 = .NONE := by
  rw [State.processCheck, if_neg (by simp [h]), if_neg (by simp)]

/-- PROCESS passes its checks with an engine and 64 bytes, and only then (42_process.md R171, R172). -/
theorem processCheck_NONE_iff (s : State) (blen : Word) : s.processCheck blen = .NONE ↔ s.INITD = true ∧ blen = 64 := by
  cases h : s.INITD
  · simp [processCheck_no_engine s blen h]
  · by_cases hb : blen = 64
    · subst hb; exact ⟨fun _ => ⟨rfl, rfl⟩, fun _ => processCheck_ok s h⟩
    · rw [processCheck_length s blen h hb]
      exact ⟨fun c => (nomatch c), fun c => absurd c.2 hb⟩

theorem setctrCheck_NONE_iff (s : State) : s.setctrCheck = .NONE ↔ s.INITD = true := by
  unfold State.setctrCheck
  cases s.INITD <;> simp

/-- INIT passes its checks on a legal CONFIG, and only then (41_init.md R151 to R153). -/
theorem initCheck_NONE_iff (s : State) :
    s.initCheck = .NONE ↔
      (s.klen = 16 ∨ s.klen = 32) ∧ s.ivlen = 8 ∧ 2 ≤ s.rounds.toNat ∧ s.rounds.getLsbD 0 = false := by
  unfold State.initCheck
  split
  · rename_i h; simp only [reduceCtorEq, false_iff, not_and]; intro c; exact absurd c (by simpa [not_or] using h)
  · rename_i h
    have hk : s.klen = 16 ∨ s.klen = 32 := by by_contra c; exact h (by simpa [not_or] using c)
    split
    · rename_i h; exact ⟨fun c => (nomatch c), fun c => absurd c.2.1 h⟩
    · rename_i hv
      have hv : s.ivlen = 8 := by simpa using hv
      split
      · rename_i hr; simp only [reduceCtorEq, false_iff, not_and]; intro _ _ c
        rcases hr with hr | hr
        · omega
        · simp [hr]
      · rename_i hr
        rw [not_or] at hr
        simp only [true_iff]
        exact ⟨hk, hv, by omega, by simpa using hr.2⟩

/-! ### Bus transactions -/

/-- A word access to an unreserved offset, or a bus error (20_memory.md R66 to R69). -/
theorem memRead_cases (s : State) (a : Access) :
    (s.memRead a = (.busError a.off, 0, s) ∧ (isWordAccess a = false ∨ regAt a.off = none)) ∨
    ∃ r, isWordAccess a = true ∧ regAt a.off = some r ∧
      ((isResultReg r = true ∧ s.busy = true ∧
          s.memRead a = (.okay, Config.drawWord s.draws, { s with draws := s.draws + 1 })) ∨
        ((isResultReg r = false ∨ s.busy = false) ∧ s.memRead a = (.okay, s.readReg r, s))) := by
  unfold State.memRead
  cases hw : isWordAccess a
  · exact .inl (by simp)
  cases hr : regAt a.off with
  | none => exact .inl (by simp)
  | some r =>
    refine .inr ⟨r, rfl, rfl, ?_⟩
    by_cases h : isResultReg r = true ∧ s.busy = true
    · exact .inl ⟨h.1, h.2, by simp only [h.1, h.2, Bool.and_self, if_true]⟩
    · have hn : (isResultReg r && s.busy) = false := by simpa only [← Bool.and_eq_true, Bool.not_eq_true] using h
      exact .inr ⟨by simpa only [Bool.and_eq_false_iff] using hn, by
        simp only [hn, if_true, Bool.false_eq_true, if_false]⟩

/-- A bus error without effect, or a write to a register the host may write (20_memory.md R67). -/
theorem memWrite_cases (s : State) (a : Access) (v : Word) :
    (s.memWrite a v = (.busError a.off, s) ∧
      (isWordAccess a = false ∨ regAt a.off = none ∨ ∃ r, regAt a.off = some r ∧ isResultReg r = true)) ∨
    ∃ r, isWordAccess a = true ∧ regAt a.off = some r ∧ isResultReg r = false ∧
      s.memWrite a v = (.okay, s.writeReg r v) := by
  unfold State.memWrite
  cases hw : isWordAccess a
  · exact .inl (by simp)
  cases hr : regAt a.off with
  | none => exact .inl (by simp)
  | some r => cases hres : isResultReg r <;> simp [hres]

/-- What a write to a writable register can do (20_memory.md R67). -/
theorem writeReg_cases (s : State) (r : Reg) (v : Word) :
    (r = .STATUS ∧ s.writeReg r v = s.writeStatus v) ∨
    (r ≠ .STATUS ∧ s.FSM ≠ .IDLE ∧ s.writeReg r v = s.dropWrite) ∨
    (r = .CMD ∧ s.FSM = .IDLE ∧ s.writeReg r v = s.accept v) ∨
    (r ≠ .STATUS ∧ r ≠ .CMD ∧ s.FSM = .IDLE ∧ s.writeReg r v = s.writeInput r v) := by
  unfold State.writeReg
  by_cases h1 : r = .STATUS
  · simp [h1]
  by_cases h2 : s.busy = true
  · exact .inr (.inl ⟨h1, by simpa using h2, by simp [h1, h2]⟩)
  have h2' : s.busy = false := by simpa using h2
  by_cases h3 : r = .CMD
  · exact .inr (.inr (.inl ⟨h3, by simpa using h2', by simp [h2', h3]⟩))
  · exact .inr (.inr (.inr ⟨h1, h3, by simpa using h2', by simp [h1, h2', h3]⟩))

/-- A stored input keeps everything that is no input register (10_state.md R52). -/
theorem writeInput_frame (s : State) (r : Reg) (v : Word) :
    s.sameEngine (s.writeInput r v) ∧ (s.writeInput r v).DOUT = s.DOUT ∧ s.sameFlags (s.writeInput r v) ∧
      s.sameInternal (s.writeInput r v) ∧ s.sameAround (s.writeInput r v) ∧ (s.writeInput r v).draws = s.draws := by
  cases r <;> simp [State.writeInput, State.sameEngine, State.sameFlags, State.sameInternal, State.sameAround]

/-- STATUS writes can only clear BWERR (10_state.md R31). -/
theorem writeStatus_cases (s : State) (v : Word) :
    (v.getLsbD 3 = true ∧ s.writeStatus v = { s with BWERR := false }) ∨
    (v.getLsbD 3 = false ∧ s.writeStatus v = s) := by
  unfold State.writeStatus
  cases v.getLsbD 3 <;> simp

/-- What the host's bus transaction does: an access outside the window nothing, one inside it the operation and its reply. -/
theorem busTransaction_cases (s : State) (t : Transaction) :
    s.busTransaction t = s ∨
    (∃ a, t = .read a ∧ s.busTransaction t = (s.memRead a).2.2.logReply (.read a.off (s.memRead a).1 (s.memRead a).2.1)) ∨
    (∃ a v, t = .write a v ∧ s.busTransaction t = (s.memWrite a v).2.logReply (.write a.off (s.memWrite a v).1)) := by
  cases t with
  | read a => by_cases h : inWindow a = true <;> simp [State.busTransaction, h]
  | write a v => by_cases h : inWindow a = true <;> simp [State.busTransaction, h]

/-! ### The CORE -/

theorem ticks_succ (s : State) (n : Nat) : s.ticks (n + 1) = s.tick.ticks n := rfl

/-- Running m + n states is running m and then n. -/
theorem ticks_add (s : State) (m n : Nat) : s.ticks (m + n) = (s.ticks m).ticks n := by
  induction m generalizing s with
  | zero => simp [State.ticks]
  | succ m ih => rw [Nat.succ_add]; exact ih s.tick

/-- A core that is idle does nothing. -/
theorem tick_of_idle (s : State) (h : s.FSM = .IDLE) : s.tick = s := by simp [State.tick, h]

theorem ticks_of_idle (s : State) (h : s.FSM = .IDLE) (n : Nat) : s.ticks n = s := by
  induction n with
  | zero => rfl
  | succ n ih => rw [ticks_succ, tick_of_idle s h, ih]

/-! One state of the reference FSM, one lemma a state (70_reset_and_hazards.md R256). -/

section

variable {s : State}

theorem tick_DECODE (h : s.FSM = .DECODE) : s.tick = s.tickDecode := by simp [State.tick, h]

theorem tick_INIT_LOAD (h : s.FSM = .INIT_LOAD) : s.tick = { s with staged := s.initResults, FSM := .FINISH } := by
  simp [State.tick, h]

theorem tick_BLK_COPY (h : s.FSM = .BLK_COPY) : s.tick = { s with X := s.S, DRI := 0, QRI := 0, FSM := .BLK_ROUND } := by
  simp [State.tick, h]

theorem tick_BLK_ROUND (h : s.FSM = .BLK_ROUND) : s.tick = s.tickRound := by simp [State.tick, h]

theorem tick_BLK_FEED (h : s.FSM = .BLK_FEED) : s.tick = { s with KW := feedFwd s.X s.S, FSM := .BLK_COMBINE } := by
  simp [State.tick, h]

theorem tick_BLK_COMBINE (h : s.FSM = .BLK_COMBINE) :
    s.tick = { s with staged := { s.staged with dout := some (combineWords s.DIN s.KW) }, FSM := .CINC_LO } := by
  simp [State.tick, h]

theorem tick_CINC_LO (h : s.FSM = .CINC_LO) : s.tick = s.tickCincLo := by simp [State.tick, h]

theorem tick_CINC_HI (h : s.FSM = .CINC_HI) :
    s.tick = { s with staged := { s.staged with ctrHi := some (add32 s.S[13] 1) }, FSM := .FINISH } := by
  simp [State.tick, h]

theorem tick_SETC (h : s.FSM = .SETC) :
    s.tick = { s with
      staged := { s.staged with ctrLo := some s.CTRIN_LO, ctrHi := some s.CTRIN_HI }, FSM := .FINISH } := by
  simp [State.tick, h]

theorem tick_FINISH (h : s.FSM = .FINISH) : s.tick = s.commit s.staged := by simp [State.tick, h]

end

/-- DECODE goes to FINISH with a code or to the command's first state with nothing staged (70_reset_and_hazards.md R255). -/
theorem tickDecode_cases (s : State) :
    (∃ e, decode s.CMDL = .error e ∧ s.tickDecode = s.pendError .ILLEGAL_COMMAND) ∨
    (∃ i, decode s.CMDL = .ok i ∧ s.check i ≠ .NONE ∧ s.tickDecode = s.pendError (s.check i)) ∨
    (∃ i, decode s.CMDL = .ok i ∧ s.check i = .NONE ∧
      s.tickDecode = { s with FSM := firstState i, staged := Staged.nothing }) := by
  unfold State.tickDecode
  cases hd : decode s.CMDL with
  | error e => exact .inl ⟨e, rfl, rfl⟩
  | ok i =>
    refine .inr ?_
    cases hc : s.check i <;> simp [hc]

/-- Every command's meaning is its completion with the check and the results of its rule. -/
theorem exec_eq_complete (i : Instr) (s : State) :
    ∃ st, exec i s = .next (s.complete (s.check i) st) := by
  cases i with
  | init => exact ⟨s.initResults, rfl⟩
  | process blen => exact ⟨s.processResults, rfl⟩
  | setctr => exact ⟨s.setctrResults, rfl⟩

/-- The commands' meanings, each as its completion. -/
theorem execInit_eq (s : State) : exec .init s = .next (s.complete s.initCheck s.initResults) := rfl

theorem execProcess_eq (blen : Word) (s : State) :
    exec (.process blen) s = .next (s.complete (s.processCheck blen) s.processResults) := rfl

theorem execSetctr_eq (s : State) : exec .setctr s = .next (s.complete s.setctrCheck s.setctrResults) := rfl

/-- A command completes: it answers a next state, idle, with the code of its checks. -/
theorem runCommand_next (s : State) : ∃ t, runCommand s = .next t ∧ t.FSM = .IDLE := by
  unfold runCommand
  cases decode s.CMDL with
  | error e => exact ⟨_, rfl, rfl⟩
  | ok i =>
    obtain ⟨st, h⟩ := exec_eq_complete i s
    obtain ⟨-, h'⟩ | ⟨-, h'⟩ := complete_cases s (s.check i) st <;> exact ⟨_, h, by rw [h']; rfl⟩

/-! ### The step -/

/-- Who moves in a step, and in which state (00_scope.md R18). -/
theorem step_cases (s : State) :
    (∃ t rest, s.turns = t :: rest ∧ step s = takeTurn t { s with turns := rest }) ∨
    (s.turns = [] ∧ s.FSM ≠ .IDLE ∧ step s = coreTurn .run s) ∨
    (s.turns = [] ∧ s.FSM = .IDLE ∧ s.host.running = true ∧ step s = .next s.hostTurn) ∨
    (s.turns = [] ∧ s.FSM = .IDLE ∧ s.host.running = false ∧ step s = .next s) := by
  unfold step State.nextTurn
  cases ht : s.turns with
  | cons t rest => exact .inl ⟨t, rest, rfl, rfl⟩
  | nil =>
    refine .inr ?_
    by_cases hb : s.busy = true
    · exact .inl ⟨rfl, by simpa using hb, by simp [hb, takeTurn]⟩
    · have hb' : s.busy = false := by simpa using hb
      have hi : s.FSM = .IDLE := by simpa using hb'
      cases hr : s.host.running
      · exact .inr (.inr ⟨rfl, hi, rfl, by simp [hb']⟩)
      · exact .inr (.inl ⟨rfl, hi, rfl, by simp [hb', takeTurn]⟩)

/-! ### The host's temporaries -/

theorem tempGet_of_lt {temps : List (Nat × Word)} {n : Nat} (h : ∀ p ∈ temps, n < p.1) : tempGet temps n = 0 := by
  induction temps with
  | nil => rfl
  | cons p rest ih =>
    obtain ⟨k, w⟩ := p
    have hk : n < k := h (k, w) (by simp)
    simp only [tempGet, if_neg (Nat.ne_of_gt hk)]
    exact ih fun q hq => h q (by simp [hq])

/-- What a list after `tempSet` can hold: what it held, and the new pair if it is not 0. -/
theorem mem_tempSet {temps : List (Nat × Word)} {n : Nat} {v : Word} {p : Nat × Word} (h : p ∈ tempSet temps n v) :
    p ∈ temps ∨ (p = (n, v) ∧ v ≠ 0) := by
  induction temps with
  | nil =>
    unfold tempSet at h
    split at h
    · cases h
    · exact .inr ⟨List.mem_singleton.mp h, ‹_›⟩
  | cons q rest ih =>
    unfold tempSet at h
    split at h
    · split at h
      · exact .inl h
      · rcases List.mem_cons.mp h with rfl | h
        · exact .inr ⟨rfl, ‹_›⟩
        · exact .inl h
    · split at h
      · split at h
        · exact .inl (List.mem_cons_of_mem _ h)
        · rcases List.mem_cons.mp h with rfl | h
          · exact .inr ⟨rfl, ‹_›⟩
          · exact .inl (List.mem_cons_of_mem _ h)
      · rcases List.mem_cons.mp h with rfl | h
        · exact .inl (List.mem_cons_self ..)
        · exact (ih h).imp (List.mem_cons_of_mem _) id

theorem tempSet_pairwise {temps : List (Nat × Word)} (h : temps.Pairwise fun p q => p.1 < q.1) (n : Nat) (v : Word) :
    (tempSet temps n v).Pairwise fun p q => p.1 < q.1 := by
  induction temps with
  | nil => unfold tempSet; split <;> simp
  | cons q rest ih =>
    have hs := List.pairwise_cons.mp h
    unfold tempSet
    split
    · split
      · exact h
      · refine List.pairwise_cons.mpr ⟨fun p hp => ?_, h⟩
        rcases List.mem_cons.mp hp with rfl | hp
        · assumption
        · exact Nat.lt_trans ‹_› (hs.1 p hp)
    · split
      · split
        · exact hs.2
        · exact List.pairwise_cons.mpr ⟨fun p hp => by have := hs.1 p hp; simp_all, hs.2⟩
      · refine List.pairwise_cons.mpr ⟨fun p hp => ?_, ih hs.2⟩
        obtain hp | ⟨rfl, -⟩ := mem_tempSet hp
        · exact hs.1 p hp
        · simp only; omega

/-- Setting a temporary keeps the canonical form. -/
theorem tempSet_canonical {temps : List (Nat × Word)} (h : tempsCanonical temps) (n : Nat) (v : Word) :
    tempsCanonical (tempSet temps n v) := by
  refine ⟨tempSet_pairwise h.1 n v, fun p hp => ?_⟩
  obtain hp | ⟨rfl, hv⟩ := mem_tempSet hp
  · exact h.2 p hp
  · exact hv

/-- Reading a temporary after a write: the value written, and every other one as before. -/
theorem tempGet_tempSet {temps : List (Nat × Word)} (h : tempsCanonical temps) (n m : Nat) (v : Word) :
    tempGet (tempSet temps n v) m = if m = n then v else tempGet temps m := by
  have hs := h.1
  clear h
  induction temps with
  | nil =>
    by_cases hv : v = 0#32
    · simp [tempSet, tempGet, hv]
    · simp [tempSet, tempGet, hv, eq_comm]
  | cons q rest ih =>
    obtain ⟨k, w⟩ := q
    rw [List.pairwise_cons] at hs
    have hlow : ∀ i, i ≤ k → tempGet rest i = 0#32 := fun i hi =>
      tempGet_of_lt fun p hp => Nat.lt_of_le_of_lt hi (hs.1 p hp)
    have ih := ih hs.2
    unfold tempSet
    split
    · by_cases hv : v = 0#32
      · by_cases hm : m = n
        · subst hm; simp [tempGet, hv, hlow m (by omega), Nat.ne_of_gt ‹_›]
        · simp [hv, hm]
      · by_cases hm : m = n
        · simp [hv, hm, tempGet]
        · simp [hv, hm, tempGet, Ne.symm hm]
    · split
      · by_cases hv : v = 0#32
        · by_cases hm : m = n
          · simp [hv, hm, hlow n (by omega)]
          · simp [hv, hm, tempGet, show k ≠ m by omega]
        · by_cases hm : m = n
          · simp [hv, hm, tempGet]
          · simp [hv, hm, tempGet, Ne.symm hm, show k ≠ m by omega]
      · by_cases hm : k = m
        · simp [tempGet, hm, show m ≠ n by omega]
        · simp [tempGet, hm, ih]

end Sys2Proof.Machine
end

