-- ==== Sys2Proof/Laws/Fsm.lean ====
section
/-! SUPPORT. What the CORE's and the HOST's moves can do, said once each (70_reset_and_hazards.md R250 to R259). -/

namespace Sys2Proof.Machine

/-! ### Results -/

/-- What a valid PROCESS commits, with the output block in word form (42_process.md R173). -/
theorem processResults_eq (s : State) :
    s.processResults = { s.stagedBlock with
      ctrLo := some (inc64 s.S[13] s.S[12]).2
      ctrHi := some (inc64 s.S[13] s.S[12]).1 } := by
  unfold State.processResults State.stagedBlock State.inputBlock
  simp only [combine_serialize, packWords_serialize]
  rfl

/-- Committing no new high counter word is committing the old one (43_counter.md R191, CINC_LO without a wrap). -/
theorem commit_same_ctrHi (s : State) (st : Staged) (he : st.engine = none) (lo : Word) :
    s.commit { st with ctrLo := some lo, ctrHi := some s.S[13] } = s.commit { st with ctrLo := some lo, ctrHi := none } := by
  have h : Staged.commitS { st with ctrLo := some lo, ctrHi := some s.S[13] } s.S =
      Staged.commitS { st with ctrLo := some lo, ctrHi := none } s.S := by
    simp only [Staged.commitS, he]
    ext i hi : 1
    rw [Vector.getElem_set]
    split
    · subst_vars; exact (Vector.getElem_set_ne (by omega) (by omega) (by omega)).symm
    · rfl
  unfold State.commit
  rw [h]

/-! ### The command as a whole -/

/-- What a command reads and keeps does not include what it held internally. -/
theorem runCommand_internal (s : State) (f : Fsm) (d : Fin 128) (q : Fin 8) (x k : Block) (st : Staged) :
    runCommand { s with FSM := f, DRI := d, QRI := q, X := x, KW := k, staged := st } = runCommand s := by
  rcases s with ⟨c, ky, iv, cl, ch, di, do_, dv, bw, er, S, rnd, ini, k2, f', cm, d', q', x', k', st', ho, re, tu, dr⟩
  simp only [runCommand]
  cases decode cm with
  | error e => rfl
  | ok i =>
    cases i with
    | init =>
      simp only [execInit_eq]
      generalize hc : State.initCheck _ = e
      generalize hc' : State.initCheck _ = e'
      have : e = e' := hc ▸ hc' ▸ rfl
      subst this
      cases e <;> rfl
    | process blen =>
      simp only [execProcess_eq]
      generalize hc : State.processCheck _ blen = e
      generalize hc' : State.processCheck _ blen = e'
      have : e = e' := hc ▸ hc' ▸ rfl
      subst this
      cases e <;> rfl
    | setctr =>
      simp only [execSetctr_eq]
      generalize hc : State.setctrCheck _ = e
      generalize hc' : State.setctrCheck _ = e'
      have : e = e' := hc ▸ hc' ▸ rfl
      subst this
      cases e <;> rfl

/-- The four ways a command ends: it fails with a code, or one of the three commands commits its results. -/
theorem runCommand_cases {s t : State} (h : runCommand s = .next t) :
    (∃ e, e ≠ .NONE ∧ t = s.fail e) ∨
    (decode s.CMDL = .ok .init ∧ s.initCheck = .NONE ∧ t = s.commit s.initResults) ∨
    (decode s.CMDL = .ok (.process 64) ∧ s.INITD = true ∧ t = s.commit s.processResults) ∨
    (decode s.CMDL = .ok .setctr ∧ s.INITD = true ∧ t = s.commit s.setctrResults) := by
  unfold runCommand at h
  cases hd : decode s.CMDL with
  | error e => rw [hd] at h; exact .inl ⟨.ILLEGAL_COMMAND, by simp, (Host.Outcome.next.inj h).symm⟩
  | ok i =>
    rw [hd] at h
    cases i with
    | init =>
      have h := (Host.Outcome.next.inj h).symm
      obtain ⟨c, e⟩ | ⟨c, e⟩ := complete_cases s s.initCheck s.initResults
      · exact .inr (.inl ⟨rfl, c, h.trans e⟩)
      · exact .inl ⟨_, c, h.trans e⟩
    | process blen =>
      have h := (Host.Outcome.next.inj h).symm
      obtain ⟨c, e⟩ | ⟨c, e⟩ := complete_cases s (s.processCheck blen) s.processResults
      · have hp := (processCheck_NONE_iff s blen).1 c
        exact .inr (.inr (.inl ⟨by rw [hp.2], hp.1, h.trans e⟩))
      · exact .inl ⟨_, c, h.trans e⟩
    | setctr =>
      have h := (Host.Outcome.next.inj h).symm
      obtain ⟨c, e⟩ | ⟨c, e⟩ := complete_cases s s.setctrCheck s.setctrResults
      · exact .inr (.inr (.inr ⟨rfl, (setctrCheck_NONE_iff s).1 c, h.trans e⟩))
      · exact .inl ⟨_, c, h.trans e⟩

/-! ### One state of the FSM -/

/-- A state of the FSM that does not complete the command changes only what the core holds internally
(70_reset_and_hazards.md R256, R259). -/
theorem tick_stays {s : State} (h : s.tick.FSM ≠ .IDLE) :
    ∃ f d q x k st, s.tick = { s with FSM := f, DRI := d, QRI := q, X := x, KW := k, staged := st } := by
  cases hf : s.FSM
  case IDLE => rw [tick_of_idle s hf] at h; exact absurd hf h
  case DECODE =>
    rw [tick_DECODE hf]
    rcases tickDecode_cases s with ⟨e, hd, ht⟩ | ⟨i, hd, hc, ht⟩ | ⟨i, hd, hc, ht⟩ <;> rw [ht] <;>
      exact ⟨_, _, _, _, _, _, rfl⟩
  case FINISH => rw [tick_FINISH hf] at h; exact absurd rfl h
  case INIT_LOAD => rw [tick_INIT_LOAD hf]; exact ⟨_, _, _, _, _, _, rfl⟩
  case BLK_COPY => rw [tick_BLK_COPY hf]; exact ⟨_, _, _, _, _, _, rfl⟩
  case BLK_ROUND => rw [tick_BLK_ROUND hf]; exact ⟨_, _, _, _, _, _, rfl⟩
  case BLK_FEED => rw [tick_BLK_FEED hf]; exact ⟨_, _, _, _, _, _, rfl⟩
  case BLK_COMBINE => rw [tick_BLK_COMBINE hf]; exact ⟨_, _, _, _, _, _, rfl⟩
  case CINC_LO => rw [tick_CINC_LO hf]; exact ⟨_, _, _, _, _, _, rfl⟩
  case CINC_HI => rw [tick_CINC_HI hf]; exact ⟨_, _, _, _, _, _, rfl⟩
  case SETC => rw [tick_SETC hf]; exact ⟨_, _, _, _, _, _, rfl⟩

/-- What a state of the FSM does is independent of BWERR, the observation and the count of draws, until it completes. -/
theorem tick_mod (s : State) (b : Bool) (r : List Reply) (n : Nat) (hf : s.FSM ≠ .FINISH) :
    ({ s with BWERR := b, replies := r, draws := n } : State).tick =
      { s.tick with BWERR := b, replies := r, draws := n } := by
  rcases s with ⟨c, ky, iv, cl, ch, di, do_, dv, bw, er, S, rnd, ini, k2, f, cm, d', q', x', k', st', ho, re, tu, dr⟩
  cases f
  case FINISH => exact absurd rfl hf
  case DECODE =>
    simp only [State.tick, State.tickDecode]
    cases decode cm with
    | error e => rfl
    | ok i =>
      simp only
      generalize hc : State.check _ i = e
      generalize hc' : State.check _ i = e'
      have : e = e' := by rw [← hc, ← hc']; cases i <;> rfl
      subst this
      cases e <;> rfl
  all_goals rfl

/-- The next quarter-round of the list (70_reset_and_hazards.md R256, BLK_ROUND). -/
theorem applyLanes_take_succ (q : Fin 8) (x : Block) :
    qrApply (applyLanes ((columnLanes ++ diagonalLanes).toList.take q.val) x) (roundLanes q) =
      applyLanes ((columnLanes ++ diagonalLanes).toList.take (q.val + 1)) x := by
  obtain ⟨q, hq⟩ := q
  interval_cases q <;> rfl

/-! ### The HOST -/

/-- Everything a bus transaction can do to the core (20_memory.md R66 to R71): nothing (beyond a draw), or, for a write:
clear BWERR, drop, accept, store. -/
theorem busTransaction_effects (s : State) (tx : Transaction) :
    (∃ r n, s.busTransaction tx = { s with replies := r, draws := n }) ∨
    ∃ a v r, tx = .write a v ∧
      ((isWordAccess a = true ∧ regAt a.off = some .STATUS ∧ v.getLsbD 3 = true ∧
          s.busTransaction tx = { s with BWERR := false, replies := r }) ∨
        (s.FSM ≠ .IDLE ∧ s.busTransaction tx = { s with BWERR := true, replies := r }) ∨
        (s.FSM = .IDLE ∧ s.busTransaction tx = { s.accept v with replies := r }) ∨
        ∃ g, s.FSM = .IDLE ∧ s.busTransaction tx = { s.writeInput g v with replies := r }) := by
  rcases busTransaction_cases s tx with h | ⟨a, ha, h⟩ | ⟨a, v, ha, h⟩
  · exact .inl ⟨_, _, h⟩
  · rcases memRead_cases s a with ⟨e, -⟩ | ⟨r, -, -, ⟨-, -, e⟩ | ⟨-, e⟩⟩ <;> rw [h, e] <;> exact .inl ⟨_, _, rfl⟩
  · rcases memWrite_cases s a v with ⟨e, -⟩ | ⟨r, h1, h2, -, e⟩
    · rw [h, e]; exact .inl ⟨_, _, rfl⟩
    · rcases writeReg_cases s r v with ⟨w, e'⟩ | ⟨-, w, e'⟩ | ⟨-, w, e'⟩ | ⟨-, -, w, e'⟩
      · rcases writeStatus_cases s v with ⟨b, e''⟩ | ⟨-, e''⟩
        · exact .inr ⟨a, v, _, ha, .inl ⟨h1, by rw [h2, w], b, by rw [h, e, e', e'']; rfl⟩⟩
        · rw [h, e, e', e'']; exact .inl ⟨_, _, rfl⟩
      · exact .inr ⟨a, v, _, ha, .inr (.inl ⟨w, by rw [h, e, e']; rfl⟩)⟩
      · exact .inr ⟨a, v, _, ha, .inr (.inr (.inl ⟨w, by rw [h, e, e']; rfl⟩))⟩
      · exact .inr ⟨a, v, _, ha, .inr (.inr (.inr ⟨r, w, by rw [h, e, e']; rfl⟩))⟩

/-- An access at BASE + off is the access at that offset, and the other way round (20_memory.md R60). -/
theorem atOffset_eq_some_iff (b : BusAccess) (a : Access) : atOffset b = some a ↔ b = atAddress a := by
  unfold atOffset atAddress
  constructor
  · intro h
    split at h
    · obtain rfl := Option.some.inj h
      simp only [Nat.add_sub_cancel' ‹_›]
    · cases h
  · rintro rfl
    simp only [Nat.le_add_right, if_true, Nat.add_sub_cancel_left]

@[simp] theorem atOffset_atAddress (a : Access) : atOffset (atAddress a) = some a := (atOffset_eq_some_iff _ a).2 rfl

/-- A transaction at an address is none that the core sees, or the one at that offset from BASE. -/
theorem busCycle_cases (s : State) (c : BusCycle) :
    s.busCycle c = s ∨
    (∃ a, c = .read (atAddress a) ∧ s.busCycle c = s.busTransaction (.read a)) ∨
    (∃ a v, c = .write (atAddress a) v ∧ s.busCycle c = s.busTransaction (.write a v)) := by
  cases c with
  | read b =>
    cases h : atOffset b with
    | none => exact .inl (by simp only [State.busCycle, h])
    | some a => exact .inr (.inl ⟨a, by rw [(atOffset_eq_some_iff b a).1 h], by simp only [State.busCycle, h]⟩)
  | write b v =>
    cases h : atOffset b with
    | none => exact .inl (by simp only [State.busCycle, h])
    | some a => exact .inr (.inr ⟨a, v, by rw [(atOffset_eq_some_iff b a).1 h], by simp only [State.busCycle, h]⟩)

/-- The host's turn is a statement of its program, or nothing. -/
theorem hostTurn_cases (s : State) : s.hostTurn = s ∨ ∃ stmt, s.hostTurn = s.hostStatement stmt := by
  unfold State.hostTurn
  split
  · split
    · exact .inr ⟨_, rfl⟩
    · exact .inl rfl
  · exact .inl rfl

end Sys2Proof.Machine
end

