-- ==== Sys2Proof/Laws/PerInstr.lean ====
section
/-! SUPPORT. What is said of every command as syntax, one lemma per constructor. -/

namespace Sys2Proof.Laws.InOpcodeRow

/-- The encoding of a command lies in its row of opcode_table.json and in no other row. -/
def Statement (i : Instr) : Prop :=
  i.row.covers (encode i) = true ∧ ∀ r ∈ opcodeRows, r.covers (encode i) = true → r = i.row

theorem init : Statement .init := by unfold Statement; decide

theorem process (blen : Word) : Statement (.process blen) := by
  have mask : encode (.process blen) &&& 0xFFFF00FF = 0x00000002 := by
    ext i hi
    simp only [encode, commandWord, BitVec.getElem_and, BitVec.getElem_append]
    interval_cases i <;> simp
  have value : (encode (.process blen)) &&& 0xF = 0x2 := by
    have := congrArg (· &&& (0xF : Word)) mask
    rw [BitVec.and_assoc] at this
    exact this
  refine ⟨by simpa [OpcodeRow.covers, Instr.row] using mask, fun r hr hc => ?_⟩
  simp only [opcodeRows, List.mem_cons, List.not_mem_nil, or_false] at hr
  obtain rfl | rfl | rfl := hr
  · have : encode (.process blen) = 0x1 := by
      rw [← BitVec.and_allOnes (x := encode (.process blen))]
      simpa [OpcodeRow.covers, Instr.row] using hc
    rw [this] at value
    exact absurd value (by decide)
  · rfl
  · have : encode (.process blen) = 0x3 := by
      rw [← BitVec.and_allOnes (x := encode (.process blen))]
      simpa [OpcodeRow.covers, Instr.row] using hc
    rw [this] at value
    exact absurd value (by decide)

theorem setctr : Statement .setctr := by unfold Statement; decide

end Sys2Proof.Laws.InOpcodeRow
end

