-- ==== Sys2Proof/Tests/Slice0.lean ====
section
/-! SUPPORT. Tests: terms the checks refuse, words written out from the spec's encodings, one-step results taken from
95_test_vectors.md, and for every statement with hypotheses a concrete state that meets them. -/

namespace Sys2Proof.Tests

open Sys2Proof.Machine

/-! ### Helpers -/

/-- One field of the next state, if there is one. -/
def after {α : Type} (o : Host.Outcome State Fault Refusal) (f : State → α) : Option α :=
  match o with
  | .next t => some (f t)
  | .fault _ => none
  | .refused _ => none

/-- Key bytes 00 to 1f and IV bytes f0 to f7 with a CONFIG (95_test_vectors.md 2.8). -/
def keyed (config : Word) : State :=
  { State.reset with
    CONFIG := config
    KEY := #v[0x03020100, 0x07060504, 0x0b0a0908, 0x0f0e0d0c, 0x13121110, 0x17161514, 0x1b1a1918, 0x1f1e1d1c]
    IV := #v[0xf3f2f1f0, 0xf7f6f5f4] }

/-- The engine of the zero key and IV with R = 8 (K2 of 95_test_vectors.md 2.7), its counter at the given words. -/
def engine (hi lo : Word) : State :=
  { State.reset with
    S := #v[0x61707865, 0x3320646e, 0x79622d32, 0x6b206574, 0, 0, 0, 0, 0, 0, 0, 0, lo, hi, 0, 0]
    RND := 8
    INITD := true
    K256 := true }

/-- The engine with a command accepted. -/
def busyEngine (w : Word) : State := (engine 0 0).accept w

/-- The engine with DIN all ones. -/
def engineOnes : State := { engine 0 0 with DIN := Vector.replicate 16 0xFFFFFFFF }

/-- The same engine somewhere in the FSM. -/
def engineAt (f : Fsm) (hi lo : Word) : State := { engine hi lo with FSM := f }

/-- A well-shaped access to an offset. -/
def at4 (off : Nat) : Access := ⟨off, 4, 0xF⟩

/-- A read at BASE + off is the one at off: what is tried out at offsets is tried out at addresses too. -/
theorem test_cycle_read (s : State) (a : Access) :
    takeTurn (.cycle (.read (atAddress a))) s = takeTurn (.bus (.read a)) s := by simp [takeTurn, State.busCycle]

/-- The same of a write. -/
theorem test_cycle_write (s : State) (a : Access) (v : Word) :
    takeTurn (.cycle (.write (atAddress a) v)) s = takeTurn (.bus (.write a v)) s := by simp [takeTurn, State.busCycle]

/-! ### WellFormed refuses ill-formed terms -/

theorem test_wellFormed_block_length : (Instr.process 256).wellFormed = false ∧ (Instr.process 255).wellFormed = true := by
  decide

theorem test_labels_twice : hostLabelsUnique [⟨[1], .halt⟩, ⟨[2, 1], .halt⟩] = false := by decide

/-- A branch to a label on two lines goes to the first of them, to one on no line past the end (log 11). -/
theorem test_labelLine : labelLine [⟨[], .halt⟩, ⟨[1], .halt⟩, ⟨[2, 1], .halt⟩] 1 = 1 ∧ labelLine [⟨[1], .halt⟩] 3 = 1 := by decide

theorem test_label_missing : hostTargetsDefined [⟨[1], .bne 0 1 0 2⟩] = false := by decide

theorem test_program_wellFormed :
    hostProgramWellFormed (asmWait 1 ++ [⟨[2], .beq 0 1 0 1⟩]) = true ∧
      hostProgramWellFormed [⟨[1], .halt⟩, ⟨[1], .halt⟩] = false ∧ hostProgramWellFormed [⟨[], .beq 0 1 0 3⟩] = false := by
  decide

/-! ### Decoding, word by word (30_encoding.md R91 to R98, 95_test_vectors.md 2.11) -/

theorem test_decode_init : decode 0b00000000000000000000000000000001 = .ok .init ∧ decode 0x00000101 = .error .lenNotZero := by
  decide

theorem test_decode_process :
    decode 0b00000000000000000100000000000010 = .ok (.process 64) ∧ decode 0x00000002 = .ok (.process 0) ∧
      decode 0x0000FF02 = .ok (.process 255) := by decide

theorem test_decode_setctr : decode 0b00000000000000000000000000000011 = .ok .setctr ∧ decode 0x00000103 = .error .lenNotZero := by
  decide

theorem test_decode_illegal :
    [0x00000000, 0x00000004, 0x0000000F].map decode = List.replicate 3 (.error .noSuchOp) ∧
      [0x00000011, 0x00010001, 0x80000001, 0x10004002, 0x00004012, 0xFFFFFFFF].map decode =
        List.replicate 6 (.error .reservedField) := by decide

theorem test_decodeTableWord :
    decodeTableWord 32 0x4002 = some (.process 64) ∧ decodeTableWord 32 0x1 = some .init ∧
      decodeTableWord 32 0x3 = some .setctr ∧ decodeTableWord 32 0x4 = none := by decide

/-! ### Datapath (95_test_vectors.md 2.1, 2.4 to 2.6) -/

theorem test_add32 : add32 0x7FFFFFFF 0x00000001 = 0x80000000 ∧ add32 0xDEADBEEF 0x21524111 = 0 := by decide

theorem test_rotl32 : rotl32 0xDEADBEEF 7 = 0x56DF77EF ∧ rotl32 0x80000001 7 = 0x000000C0 := by decide

theorem test_qr :
    qr ⟨0x61707865, 0, 0, 0⟩ = ⟨0xB7877FEB, 0x4A7D5C86, 0x5A83FD3F, 0xE21E9BCF⟩ ∧
      qr ⟨0, 0, 0, 1⟩ = ⟨0x10000000, 0x80800808, 0x01010010, 0x01000010⟩ := by decide

theorem test_blockFn :
    blockFn #v[0, 1, 2, 3, 4, 5, 6, 7, 8, 9, 10, 11, 12, 13, 14, 15] 2 =
      #v[0xa9295c6a, 0xb471be7b, 0x38e65ec6, 0x74348b8a, 0xf1ad76ca, 0x7b446280, 0x946682b6, 0xf12f4917,
        0xd7e22f88, 0x3232dddd, 0xb5b3b757, 0xc024044f, 0xc8a5de51, 0xe417e1e0, 0x1a392486, 0x983c4ece] := by
  decide +kernel

theorem test_feedFwd_carry :
    feedFwd (Vector.replicate 16 0xFFFFFFFF) (Vector.replicate 16 1) = Vector.replicate 16 0 := by decide +kernel

/-! ### The commands, one step each (95_test_vectors.md 1.1, 2.7 to 2.10, 3.3) -/

theorem test_init_layouts :
    after (exec .init (keyed 0x00080820)) (fun t => (t.S, t.RND, t.K256, t.INITD, t.ERR)) =
      some (#v[0x61707865, 0x3320646e, 0x79622d32, 0x6b206574, 0x03020100, 0x07060504, 0x0b0a0908, 0x0f0e0d0c,
        0x13121110, 0x17161514, 0x1b1a1918, 0x1f1e1d1c, 0, 0, 0xf3f2f1f0, 0xf7f6f5f4], 8, true, true, .NONE) ∧
    after (exec .init (keyed 0x00080810)) (fun t => (t.S, t.RND, t.K256, t.INITD, t.ERR)) =
      some (#v[0x61707865, 0x3120646e, 0x79622d36, 0x6b206574, 0x03020100, 0x07060504, 0x0b0a0908, 0x0f0e0d0c,
        0x03020100, 0x07060504, 0x0b0a0908, 0x0f0e0d0c, 0, 0, 0xf3f2f1f0, 0xf7f6f5f4], 8, false, true, .NONE) := by
  decide +kernel

theorem test_init_errors :
    [0x0008080F, 0x00080811, 0x00080720, 0x00080920, 0x00030820, 0x00000820, 0x0003090F].map
        (fun c => after (exec .init (keyed c)) State.statusWord) =
      [some 0x10, some 0x10, some 0x20, some 0x20, some 0x30, some 0x30, some 0x10] := by decide

theorem test_process_K2 :
    after (exec (.process 64) (engine 0 0)) (fun t => (t.DOUT, t.statusWord, t.counter)) =
      some (#v[0x2fef003e, 0xd6405f89, 0xe8b85b7f, 0xa1a5091f, 0xc30e842c, 0x3b7f9ace, 0x88e11b18, 0x1e1a71ef,
        0x72e14c98, 0x416f21b9, 0x6753449f, 0x19566d45, 0xa3424a31, 0x01b086da, 0xb8fd7b38, 0x42fe0c0e],
        0x00010806, 1) := by decide +kernel

theorem test_process_errors :
    [0, 63, 65, 255].map (fun n => after (exec (.process n) (engine 0 5)) (fun t => (t.statusWord, t.counter))) =
      List.replicate 4 (some (0x00010842, 5)) ∧
    [64, 63].map (fun n => after (exec (.process n) State.reset) State.statusWord) = [some 0x50, some 0x50] := by decide

theorem test_setctr :
    after (exec .setctr { engine 0 7 with CTRIN_LO := 0xFFFFFFFF, CTRIN_HI := 0x09000000 })
        (fun t => (t.readReg .CTR_LO, t.readReg .CTR_HI, t.statusWord)) =
      some (0xFFFFFFFF, 0x09000000, 0x00010802) := by decide

theorem test_setctr_without_engine : after (exec .setctr State.reset) State.statusWord = some 0x50 := by decide

/-- The low counter word wraps into the high one (95_test_vectors.md 2.10, 3.3). -/
theorem test_counter_wraps : inc64 0 0xFFFFFFFF = (1, 0) ∧ inc64 0xFFFFFFFF 0xFFFFFFFF = (0, 0) := by decide

/-! ### The register window (95_test_vectors.md 2.12) -/

theorem test_bus_idle :
    (State.reset.memRead (at4 0)).2.1 = 0 ∧
    (State.reset.memWrite (at4 8) 0xFFFFFFFF).2.CONFIG = 0x00FFFFFF ∧
    (State.reset.memRead (at4 2)).1 = .busError 2 ∧ (State.reset.memRead ⟨0x80, 2, 0x3⟩).1 = .busError 0x80 ∧
    (State.reset.memRead (at4 0x0C)).1 = .busError 0x0C ∧ (State.reset.memRead (at4 0x48)).1 = .busError 0x48 ∧
    (State.reset.memRead (at4 0x7C)).1 = .busError 0x7C ∧ (State.reset.memWrite (at4 0xC0) 0).1 = .busError 0xC0 ∧
    (State.reset.memWrite (at4 0x40) 5).1 = .busError 0x40 := by decide

theorem test_bus_busy :
    ((busyEngine 1).memWrite (at4 0x80) 9).1 = .okay ∧ ((busyEngine 1).memWrite (at4 0x80) 9).2.BWERR = true ∧
    ((busyEngine 1).memWrite (at4 0x80) 9).2.DIN = (busyEngine 1).DIN ∧
    ((busyEngine 1).memWrite (at4 0x00) 3).2.CMDL = 1 ∧ ((busyEngine 1).memWrite (at4 0x00) 3).2.BWERR = true ∧
    ((busyEngine 1).memRead (at4 0xC0)).1 = .okay ∧ ((busyEngine 1).memRead (at4 0x80)).2.1 = 0 ∧
    ((busyEngine 1).memRead (at4 0x04)).2.1 = 0x00010803 := by decide

/-! ### One step of the machine -/

/-- From reset, a placed command runs in the very next step (95_test_vectors.md 2.9 and 2.8, reset CONFIG). -/
theorem test_step_runs_placed_word :
    after (step (State.reset.withFetchWord 32 0x00004002)) State.statusWord = some 0x50 ∧
    after (step (State.reset.withFetchWord 32 0x00000001)) State.statusWord = some 0x00010802 ∧
    after (step (State.reset.withFetchWord 32 0x00000003)) State.statusWord = some 0x50 ∧
    after (step (State.reset.withFetchWord 32 0x00000004)) State.statusWord = some 0x60 := by decide

/-- The first statement of P6 (95_test_vectors.md 3.6) issues the transaction (W, 0x00, 0x00000001). -/
theorem test_host_program :
    after (step { State.reset with host := { HostAgent.idle with program := asmInit } })
      (fun t => (t.replies, t.CMDL, t.busy, t.host.line)) = some ([.write 0 .okay], 1, true, 1) := by decide

/-! ### The invariant at concrete states, idle and busy -/

theorem engine_inv : (engine 0 0).Inv where
  configReserved := by decide
  engineRounds _ := by unfold legalRounds; decide
  engineWords _ := by unfold engineLayout; decide
  noEngine h := nomatch h
  busyFlags h := nomatch h
  validOutput h := nomatch h
  progress := trivial
  temporaries := ⟨List.Pairwise.nil, fun _ h => nomatch h⟩

theorem busyEngine_inv (w : Word) : (busyEngine w).Inv where
  configReserved := by show (engine 0 0).CONFIG.extractLsb' 24 8 = 0; decide
  engineRounds _ := engine_inv.engineRounds rfl
  engineWords _ := engine_inv.engineWords rfl
  noEngine h := nomatch h
  busyFlags _ := ⟨rfl, rfl⟩
  validOutput h := nomatch h
  progress := trivial
  temporaries := engine_inv.temporaries

theorem keyed_inv : ((keyed 0x00080820).accept 1).Inv where
  configReserved := by decide
  engineRounds h := nomatch h
  engineWords h := nomatch h
  noEngine _ := ⟨rfl, rfl, rfl, rfl⟩
  busyFlags _ := ⟨rfl, rfl⟩
  validOutput h := nomatch h
  progress := trivial
  temporaries := ⟨List.Pairwise.nil, fun _ h => nomatch h⟩

/-! ### Witnesses: for every statement with hypotheses, a state that meets them -/

theorem witness_DecodeOfEncode :
    Instr.init.wellFormed = true ∧ (Instr.process 0).wellFormed = true ∧ (Instr.process 255).wellFormed = true ∧
      Instr.setctr.wellFormed = true := by decide

theorem witness_DecodedWordIsItsEncoding :
    decode 0x00000001 = .ok .init ∧ decode 0x0000FF02 = .ok (.process 255) ∧ decode 0x00000003 = .ok .setctr := by decide

theorem witness_LegalWordsAreExactly258 :
    (0x3F : BitVec 8) ≠ 0x40 ∧ (0x41 : BitVec 8) ≠ 0x40 ∧ (engine 0 0).INITD = true := by decide

/-- RSV1, RSV0, LEN and OP at the ends of their ranges. -/
theorem witness_IllegalWordOnlySetsErr :
    State.reset.busy = false ∧ (engine 0 0).busy = false ∧
    (0x00010001 : Word).toNat / 65536 ≠ 0 ∧ (0x80000001 : Word).toNat / 65536 ≠ 0 ∧
    (0x00000011 : Word).toNat / 16 % 16 ≠ 0 ∧ (0x000000F2 : Word).toNat / 16 % 16 ≠ 0 ∧
    ((0x00000101 : Word).toNat % 16 = 1 ∧ (0x00000101 : Word).toNat / 256 % 256 ≠ 0) ∧
    ((0x0000FF03 : Word).toNat % 16 = 3 ∧ (0x0000FF03 : Word).toNat / 256 % 256 ≠ 0) ∧
    (0x00000000 : Word).toNat % 16 = 0 ∧ 4 ≤ (0x00000004 : Word).toNat % 16 ∧ 4 ≤ (0x0000000F : Word).toNat % 16 := by
  decide

theorem witness_RotatorMovesBits : (0 < 32 ∧ 31 < 32) ∧ (rotl32 1 31).getLsbD 31 = true ∧ (rotl32 2 31).getLsbD 0 = true := by
  decide

theorem witness_QuarterRoundInPlace :
    let n : Lanes := ⟨0, 5, 10, 15⟩
    (n.i ≠ n.j ∧ n.i ≠ n.k ∧ n.i ≠ n.l ∧ n.j ≠ n.k ∧ n.j ≠ n.l ∧ n.k ≠ n.l) ∧
      ((1 : Fin 16) ≠ n.i ∧ (1 : Fin 16) ≠ n.j ∧ (1 : Fin 16) ≠ n.k ∧ (1 : Fin 16) ≠ n.l) := by decide

theorem witness_ColumnPassInAnyOrder : (columnLanes.toList.reverse).Perm columnLanes.toList := List.reverse_perm _

theorem witness_DiagonalPassInAnyOrder : (diagonalLanes.toList.reverse).Perm diagonalLanes.toList := List.reverse_perm _

theorem witness_RoundLoopRunsHalfTheRounds :
    ((0 : BitVec 8).toNat % 2 = 0 ∧ (0 : BitVec 8).toNat ≤ 252) ∧
      ((252 : BitVec 8).toNat % 2 = 0 ∧ (252 : BitVec 8).toNat ≤ 252) := by decide

/-- Each outcome of INIT at the ends of its range: KEYLEN 15, 17; IVLEN 7, 9; ROUNDS 0, 1, 3, 255; ROUNDS 2, 254. -/
theorem witness_InitChecksInOrder :
    [0x0008080F, 0x00080811, 0x00080720, 0x00080910, 0x00000820, 0x00010820, 0x00030810, 0x00FF0820, 0x00020820, 0x00FE0810].map
        (fun c => after (exec .init (keyed c)) State.ERR) =
      [some .INVALID_KEY_LENGTH, some .INVALID_KEY_LENGTH, some .INVALID_IV_LENGTH, some .INVALID_IV_LENGTH,
        some .INVALID_ROUND_COUNT, some .INVALID_ROUND_COUNT, some .INVALID_ROUND_COUNT, some .INVALID_ROUND_COUNT,
        some .NONE, some .NONE] := by decide

theorem witness_InitBuildsEngine :
    (let s := keyed 0x00FE0820
     s.klen = 32 ∧ s.ivlen = 8 ∧ 2 ≤ s.rounds.toNat ∧ s.rounds.toNat % 2 = 0) ∧
    (let s := keyed 0x00020810
     s.klen = 16 ∧ s.ivlen = 8 ∧ 2 ≤ s.rounds.toNat ∧ s.rounds.toNat % 2 = 0) := by decide

theorem witness_ProcessOutputs : (engine 0 0).INITD = true ∧ (12 : Fin 16) ≠ 13 ∧ (14 : Fin 16) ≠ 12 ∧ (14 : Fin 16) ≠ 13 := by
  decide

theorem witness_ProcessRefusals :
    State.reset.INITD = false ∧ (engine 0 0).INITD = true ∧ (63 : Word) ≠ 64 ∧ (65 : Word) ≠ 64 := by decide

/-- Two states with one engine, the second one's DIN the first one's DOUT. -/
theorem witness_DecryptionInvertsEncryption :
    (engine 0 0).INITD = true ∧ ∃ t, exec (.process 64) (engine 0 0) = .next t ∧
      (engine 0 0).sameEngine { engine 0 0 with DIN := t.DOUT } :=
  ⟨rfl, _, execProcess_eq 64 (engine 0 0), rfl, rfl, rfl, rfl⟩

theorem witness_InputBitsFlipOnlyTheirOutputBits :
    (engine 0 0).INITD = true ∧ (engine 0 0).sameEngine engineOnes ∧ engineOnes.DIN ≠ (engine 0 0).DIN :=
  ⟨rfl, ⟨rfl, rfl, rfl, rfl⟩, by decide⟩

theorem witness_CounterFsmVisitsHighOnWrap :
    ((engineAt .CINC_LO 0 0).FSM = .CINC_LO ∧ (engineAt .CINC_LO 0 0).staged.ctrHi = none ∧
        (engineAt .CINC_LO 0 0).S[12] ≠ 0xFFFFFFFF) ∧
      (engineAt .CINC_LO 0 0xFFFFFFFF).FSM = .CINC_LO ∧ (engineAt .CINC_LO 0 0xFFFFFFFF).staged.ctrHi = none ∧
        (engineAt .CINC_LO 0 0xFFFFFFFF).S[12] = 0xFFFFFFFF := by decide

/-- One block from the counter's maximum. -/
theorem witness_BlocksAdvanceCounterByTheirNumber :
    blockChain (fun k => if k = 0 then engine 0xFFFFFFFF 0xFFFFFFFF else
      (engine 0xFFFFFFFF 0xFFFFFFFF).commit (engine 0xFFFFFFFF 0xFFFFFFFF).processResults) 1 := by
  refine ⟨rfl, fun k hk => ⟨engine 0xFFFFFFFF 0xFFFFFFFF, ?_, ?_⟩⟩
  · obtain rfl : k = 0 := by omega
    exact ⟨rfl, rfl, rfl, rfl⟩
  · obtain rfl : k = 0 := by omega
    rw [execProcess_eq, processCheck_ok _ rfl, complete_NONE]
    rfl

theorem witness_Setctr : (engine 0 0).INITD = true ∧ State.reset.INITD = false := by decide

theorem witness_FailedCommandWritesOnlyErr :
    [(keyed 0x0008080F).check .init, (keyed 0x00080720).check .init, (keyed 0x00030820).check .init,
      (engine 0 0).check (.process 63), State.reset.check .setctr] =
      [.INVALID_KEY_LENGTH, .INVALID_IV_LENGTH, .INVALID_ROUND_COUNT, .INVALID_BLOCK_LENGTH, .NOT_INITIALIZED] := by decide

theorem witness_RegisterMapOffsets :
    [0x0C, 0x48, 0x7C].map regAt = List.replicate 3 none ∧ regAt 0x44 = some .CTR_HI ∧ regAt 0x80 = some (.DIN 0) ∧
      regAt 0xFC = some (.DOUT 15) := by decide

theorem witness_ReadAnswers :
    ((at4 2).off < 0x100 ∧ (at4 0xFF).off < 0x100 ∧ (at4 0xFF).off % 4 ≠ 0) ∧
    (at4 2).off % 4 ≠ 0 ∧ (⟨0x80, 2, 0xF⟩ : Access).bytes ≠ 4 ∧ (⟨0x80, 4, 0x7⟩ : Access).lanes ≠ 0xF ∧
    ((at4 0x0C).off % 4 = 0 ∧ (at4 0x0C).bytes = 4 ∧ (at4 0x0C).lanes = 0xF ∧ regAt (at4 0x0C).off = none) ∧
    [0x00, 0x04, 0x08, 0x2C, 0x34, 0x38, 0x3C, 0x40, 0x44, 0xBC, 0xFC].map (fun off => regAt (at4 off).off) =
      [.CMD, .STATUS, .CONFIG, .KEY 7, .IV 1, .CTRIN_LO, .CTRIN_HI, .CTR_LO, .CTR_HI, .DIN 15, .DOUT 15].map some ∧
    (regAt (at4 0xC0).off = some (.DOUT 0) ∧ isResultReg (.DOUT 0) = true ∧ (busyEngine 1).busy = true) ∧
    (regAt (at4 0x04).off = some .STATUS ∧ isResultReg .STATUS = false) ∧ (engine 0 0).busy = false := by decide

theorem witness_WriteEffects :
    ((at4 0x7C).off < 0x100 ∧ regAt (at4 0x7C).off = none) ∧ ((at4 0xFF).off < 0x100 ∧ (at4 0xFF).off % 4 ≠ 0) ∧
    isResultReg .CTR_LO = true ∧ isResultReg (.DOUT 15) = true ∧ isResultReg .CONFIG = false ∧
    (0x00000008 : Word).getLsbD 3 = true ∧ (0xFFFFFFF7 : Word).getLsbD 3 = false ∧
    (isResultReg .CMD = false ∧ Reg.CMD ≠ .STATUS ∧ (busyEngine 1).busy = true) ∧ (engine 0 0).busy = false := by decide

theorem witness_BusErrorCasesHaveNoEffect :
    (at4 0xFC).off < 0x100 ∧ (at4 0xFC).off % 4 = 0 ∧ (State.reset.memRead (at4 0x0C)).1 ≠ .okay ∧
      (State.reset.memWrite (at4 0x44) 1).1 ≠ .okay := by decide

/-- For WritesWhileBusyAreDropped, ConfigWriteMasksReservedBits, AcceptanceWritesFourThings and InputWritesAreIdempotent. -/
theorem witness_writes :
    ((busyEngine 1).busy = true ∧ isResultReg (.DIN 15) = false ∧ Reg.DIN 15 ≠ .STATUS) ∧
    ((busyEngine 1).busy = true ∧ isResultReg .CMD = false ∧ Reg.CMD ≠ .STATUS) ∧
    (State.reset.busy = false ∧ isResultReg .CONFIG = false ∧ Reg.CONFIG ≠ .STATUS ∧ Reg.CONFIG ≠ .CMD) := by decide

theorem witness_DisciplinedHostIsSafe :
    (engine 0 0).disciplined (.read (at4 0xFC)) = true ∧ (busyEngine 1).disciplined (.read (at4 0x04)) = true ∧
    (engine 0 0).disciplined (.write (at4 0xBC) 1) = true ∧ (busyEngine 1).disciplined (.write (at4 0x04) 8) = true ∧
    (busyEngine 1).disciplined (.read (at4 0xC0)) = false ∧ (busyEngine 1).disciplined (.write (at4 0x80) 1) = false := by
  decide

/-- A valid and a failing run of each command, for ReferenceSequenceIsTheCommand and StepRunsTheAcceptedCommand. -/
theorem witness_ReferenceSequenceIsTheCommand :
    ((busyEngine 0x4002).FSM = .DECODE ∧ decode (busyEngine 0x4002).CMDL = .ok (.process 64)) ∧
    ((busyEngine 1).FSM = .DECODE ∧ decode (busyEngine 1).CMDL = .ok .init) ∧
    ((busyEngine 3).FSM = .DECODE ∧ decode (busyEngine 3).CMDL = .ok .setctr) ∧
    ((busyEngine 0x4002).INITD = true ∧ 2 ≤ (busyEngine 0x4002).RND.toNat ∧ (busyEngine 0x4002).RND.toNat % 2 = 0) ∧
    (busyEngine 0x4002).referenceClocks (.process 64) = 38 ∧ (busyEngine 1).referenceClocks .init = 3 ∧
    (State.reset.accept 3).referenceClocks .setctr = 2 := by decide

/-- For EveryCommandFinishes: also a state no run reaches. -/
theorem witness_EveryCommandFinishes :
    (busyEngine 0x4002).busy = true ∧ ({ engineAt .BLK_ROUND 0 0 with DRI := 127, QRI := 7 } : State).busy = true := by decide

theorem witness_RestOfTheSequenceIsTheCommand : (busyEngine 0x4002).Inv ∧ (busyEngine 0x4002).busy = true :=
  ⟨busyEngine_inv _, by decide⟩

/-- For NoPartialCommandIsVisible and HostAndCoreCommuteWhileBusy. -/
theorem witness_NoPartialCommandIsVisible :
    (busyEngine 0x4002).busy = true ∧ (busyEngine 0x4002).tick.busy = true ∧ (engineAt .BLK_FEED 0 0).tick.busy = true := by
  decide

theorem witness_StepRunsTheAcceptedCommand :
    ((State.reset.withFetchWord 32 0x4002).FSM = .DECODE ∧
      decode (State.reset.withFetchWord 32 0x4002).CMDL = .ok (.process 64) ∧
      (State.reset.withFetchWord 32 0x4002).turns = [.core .run]) ∧ (busyEngine 0x4002).turns = [] := by decide

/-- A program at its first line and one past its last, halted or not: also for HostStatementsDoTheirTransaction. -/
def runsProgram (line : Nat) (halted : Bool) (prog : List HostLine) : State :=
  { State.reset with turns := [.program], host := { HostAgent.idle with program := prog, line := line, halted := halted } }

theorem witness_StepTakesTheFirstTurn :
    ({ State.reset with turns := [.bus (.read (at4 4))] } : State).turns = [.bus (.read (at4 4))] ∧
    ({ State.reset with turns := [.cycle (.read ⟨4, 4, 0xF⟩)] } : State).turns = [.cycle (.read ⟨4, 4, 0xF⟩)] ∧
    ((runsProgram 0 false asmInit).turns = .program :: [] ∧ (runsProgram 0 false asmInit).host.halted = false ∧
      (runsProgram 0 false asmInit).host.program[(runsProgram 0 false asmInit).host.line]? = some ⟨[], .wr .CMD 1⟩) ∧
    (runsProgram 0 true asmInit).host.halted = true ∧
    (runsProgram 1 false asmInit).host.program.length ≤ (runsProgram 1 false asmInit).host.line := by decide

/-- For StepTakesTheFirstTurn: a merged move of the core in IDLE, in DECODE with a legal and with an illegal word and within a
command, and a state without a turn, busy, idle before a statement, and idle without one. -/
theorem witness_StepTakesTheFirstTurn_run :
    (State.reset.FSM = .IDLE ∧ (busyEngine 1).FSM = .DECODE ∧ (engineAt .BLK_ROUND 0 0).FSM ≠ .IDLE ∧
      (engineAt .BLK_ROUND 0 0).FSM ≠ .DECODE) ∧
    (decode (busyEngine 1).CMDL = .ok .init ∧ decode (busyEngine 0).CMDL = .error .noSuchOp) ∧
    ((busyEngine 1).turns = [] ∧ (busyEngine 1).busy = true) ∧
    (∃ line, ({ runsProgram 0 false asmInit with turns := [] } : State).host.program[0]? = some line) ∧
    (State.reset.turns = [] ∧ State.reset.busy = false ∧ State.reset.host.program.length ≤ State.reset.host.line) :=
  ⟨by decide, by decide, by decide, ⟨_, rfl⟩, by decide⟩

/-- Steps of the CORE, the HOST and RESET from states with the invariant. -/
theorem witness_EveryStepKeepsTheInvariant :
    ((busyEngine 0x4002).Inv ∧ ∃ t, step (busyEngine 0x4002) = .next t) ∧ (engine 0 0).Inv ∧ step (engine 0 0) = .next (engine 0 0) :=
  ⟨⟨busyEngine_inv _, _, rfl⟩, engine_inv, rfl⟩

theorem witness_ResetAbortsEverything :
    ({ busyEngine 0x4002 with turns := [.reset] } : State).turns = .reset :: [] ∧ (busyEngine 0x4002).busy = true := by decide

theorem witness_HostMovesKeepTheEngine :
    takeTurn (.bus (.write (at4 0) 1)) (engine 0 0) = .next ((engine 0 0).busTransaction (.write (at4 0) 1)) ∧
      takeTurn .program (engine 0 0) = .next (engine 0 0).hostTurn ∧
      takeTurn (.cycle (.write (atAddress (at4 0)) 1)) (engine 0 0) =
        .next ((engine 0 0).busCycle (.write (atAddress (at4 0)) 1)) := ⟨rfl, rfl, rfl⟩

/-- INIT from a state without an engine, and a reset of one with it. -/
theorem witness_OnlyInitMakesAnEngine :
    (((keyed 0x00080820).accept 1).Inv ∧ ((keyed 0x00080820).accept 1).INITD = false ∧
      after (takeTurn (.core .run) ((keyed 0x00080820).accept 1)) State.INITD = some true) ∧
    ((engine 0 0).Inv ∧ (engine 0 0).INITD = true ∧ after (takeTurn .reset (engine 0 0)) State.INITD = some false) :=
  ⟨⟨keyed_inv, by decide, by decide⟩, engine_inv, by decide, by decide⟩

theorem witness_BwerrIsSticky :
    ((busyEngine 1).BWERR = false ∧ after (takeTurn (.bus (.write (at4 0x80) 1)) (busyEngine 1)) State.BWERR = some true) ∧
    after (takeTurn .program { busyEngine 1 with host := { HostAgent.idle with program := asmInit } }) State.BWERR = some true ∧
    after (takeTurn (.bus (.write (at4 0x04) 8)) { busyEngine 1 with BWERR := true }) State.BWERR = some false ∧
    after (takeTurn .program { engine 0 0 with BWERR := true, host := { HostAgent.idle with program := asmClrbw } })
      State.BWERR = some false ∧
    after (takeTurn (.bus (.read (at4 0x04))) { busyEngine 1 with BWERR := true }) State.BWERR = some true ∧
    after (takeTurn (.core .tick) { busyEngine 1 with BWERR := true }) State.BWERR = some true ∧
    after (takeTurn .reset { busyEngine 1 with BWERR := true }) State.BWERR = some false := by decide

/-- For BwerrIsSticky: the same by transactions at addresses. -/
theorem witness_BwerrIsSticky_at_address :
    after (takeTurn (.cycle (.write (atAddress (at4 0x80)) 1)) (busyEngine 1)) State.BWERR = some true ∧
    after (takeTurn (.cycle (.write (atAddress (at4 0x04)) 8)) { busyEngine 1 with BWERR := true }) State.BWERR = some false ∧
    after (takeTurn (.cycle (.read (atAddress (at4 0x04)))) { busyEngine 1 with BWERR := true }) State.BWERR = some true := by
  simp only [test_cycle_read, test_cycle_write]; decide

/-- The engine with an output, DVALID = 1. -/
def engineDone : State := { engine 0 1 with DVALID := true }

theorem engineDone_inv : engineDone.Inv where
  configReserved := by decide
  engineRounds _ := engine_inv.engineRounds rfl
  engineWords _ := by unfold engineLayout; decide
  noEngine h := nomatch h
  busyFlags h := nomatch h
  validOutput _ := ⟨rfl, rfl⟩
  progress := trivial
  temporaries := engine_inv.temporaries

/-- A completion that sets DVALID and DOUT, and an acceptance, at an offset or an address, and a reset that clear DVALID. -/
theorem witness_OnlyProcessWritesTheOutput :
    ((busyEngine 0x4002).Inv ∧ (busyEngine 0x4002).DVALID = false ∧
      after (takeTurn (.core .run) (busyEngine 0x4002)) (fun t => (t.DVALID, decide (t.DOUT = (busyEngine 0x4002).DOUT))) =
        some (true, false)) ∧
    engineDone.Inv ∧ engineDone.DVALID = true ∧
    after (takeTurn (.bus (.write (at4 0) 3)) engineDone) State.DVALID = some false ∧
    after (takeTurn (.cycle (.write (atAddress (at4 0)) 3)) engineDone) State.DVALID = some false ∧
    after (takeTurn .reset engineDone) State.DVALID = some false := by
  rw [test_cycle_write]
  exact ⟨⟨busyEngine_inv _, by decide, by decide +kernel⟩, engineDone_inv, rfl, by decide, by decide, by decide⟩

/-- ERR changes at acceptance, at completion and by reset. -/
theorem witness_ErrKeepsTheLastOutcome :
    after (takeTurn (.bus (.write (at4 0) 1)) { engine 0 0 with ERR := .INVALID_BLOCK_LENGTH }) State.ERR = some .NONE ∧
    after (takeTurn (.cycle (.write (atAddress (at4 0)) 1)) { engine 0 0 with ERR := .INVALID_BLOCK_LENGTH }) State.ERR =
      some .NONE ∧
    after (takeTurn (.core .run) (busyEngine 0x3F02)) State.ERR = some .INVALID_BLOCK_LENGTH ∧
    after (takeTurn .reset { engine 0 0 with ERR := .INVALID_BLOCK_LENGTH }) State.ERR = some .NONE := by
  rw [test_cycle_write]; decide

theorem witness_HostObservesTheAnswers : 0x100 ≤ (at4 0x100).off ∧ (at4 0xFC).off < 0x100 := by decide

/-- An address of each side of the window's upper edge, and one below the window if there is any below it. -/
theorem witness_WindowSitsAtBase :
    (Config.BASE ≤ Config.BASE + 0xFF ∧ Config.BASE + 0xFF < Config.BASE + 0x100) ∧
    Config.BASE + 0x100 ≤ (atAddress (at4 0x100)).addr ∧ (0 < Config.BASE → Config.BASE - 1 < Config.BASE) := by
  simp only [atAddress, at4]; omega

theorem witness_HostStatementsDoTheirTransaction :
    tempsCanonical State.reset.host.temps ∧ tempsCanonical [(1, 0x5), (3, 0x7)] :=
  ⟨⟨List.Pairwise.nil, fun _ h => nomatch h⟩, by decide, by decide⟩

theorem witness_PseudoInstructionsExpand :
    (keyed 0x00FE0810).CONFIG = (((254 : BitVec 8).setWidth 32 <<< 16) ||| ((8 : BitVec 8).setWidth 32 <<< 8) |||
      (16 : BitVec 8).setWidth 32) := by decide

end Sys2Proof.Tests
end

section
/-! O15: `le_word` and `le_bytes` are inverse to each other (00_scope.md R14). -/

namespace Sys2Proof.Machine

/-- A byte appended below a word shifts it up one base-256 digit. -/
theorem toNat_append_byte {n : Nat} (x : BitVec n) (y : Byte) : (x ++ y).toNat = 2 ^ 8 * x.toNat + y.toNat := by
  rw [BitVec.toNat_append, ← Nat.shiftLeft_add_eq_or_of_lt y.isLt, Nat.shiftLeft_eq, Nat.mul_comm]

/-- The weights of the bytes in `le_word` (00_scope.md R14). -/
theorem leWord_toNat (b : Vector Byte 4) :
    (leWord b).toNat = b[0].toNat + 2 ^ 8 * b[1].toNat + 2 ^ 16 * b[2].toNat + 2 ^ 24 * b[3].toNat := by
  rw [leWord_eq_append]
  simp only [toNat_append_byte]
  omega

/-- Lane i of a packed word is byte i: its base-256 digit, as the bytes below weigh less than 256^i (20_memory.md R62). -/
@[simp] theorem laneByte_leWord (b : Vector Byte 4) (i : Fin 4) : laneByte (leWord b) i = b[i] := by
  apply BitVec.eq_of_toNat_eq
  rw [laneByte_toNat, leWord_toNat]
  have h0 := b[0].isLt
  have h1 := b[1].isLt
  have h2 := b[2].isLt
  fin_cases i <;> simp <;> omega

/-- Packing undoes splitting into bytes (00_scope.md R14). -/
theorem leWord_leBytes (w : Word) : leWord (leBytes w) = w :=
  leWord_laneBytes w

/-- Splitting into bytes undoes packing (00_scope.md R14). -/
theorem leBytes_leWord (b : Vector Byte 4) : leBytes (leWord b) = b := by
  ext i hi : 1
  simp [leBytes]

/-- Settles O15, from the two inverses and the byte weights. -/
theorem littleEndianConversionsInvert : Obligations.LittleEndianConversionsInvert :=
  ⟨leWord_leBytes, leBytes_leWord, leWord_toNat⟩

end Sys2Proof.Machine
end

section
/-! O36: CONFIG keeps bits [23:0] of what an idle host writes, and nothing of what a busy one writes (10_state.md R22). -/

namespace Sys2Proof.Machine

/-- Each register is found at its own offset (20_memory.md R61). -/
@[simp] theorem regAt_regOffset (r : Reg) : regAt (regOffset r) = some r := by
  cases r with
  | CMD | STATUS | CONFIG | CTRIN_LO | CTRIN_HI | CTR_LO | CTR_HI => rfl
  | KEY k => revert k; decide
  | IV k => revert k; decide
  | DIN k => revert k; decide
  | DOUT k => revert k; decide

/-- A host assembly statement's access is aligned and whole (20_memory.md R68). -/
@[simp] theorem isWordAccess_wordAccess (r : Reg) : isWordAccess (wordAccess r) = true := by
  have aligned : regOffset r % 4 = 0 := by cases r <;> simp [regOffset]
  simp [isWordAccess, wordAccess, aligned]

/-- A whole-register write to a writable register meets no bus error (20_memory.md R67). -/
theorem memWrite_wordAccess (s : State) {r : Reg} (v : Word) (hr : isResultReg r = false) :
    s.memWrite (wordAccess r) v = (.okay, s.writeReg r v) := by
  have found : regAt (wordAccess r).off = some r := regAt_regOffset r
  simp [State.memWrite, found, hr]

/-- A write while BUSY = 1 is dropped, to any register but STATUS (70_reset_and_hazards.md R252). -/
theorem writeReg_busy (s : State) {r : Reg} (v : Word) (hr : r ≠ .STATUS) (hb : s.busy = true) :
    s.writeReg r v = s.dropWrite := by
  simp only [State.writeReg, hr, hb, if_true, if_false]

/-- A write while BUSY = 0 to a register other than STATUS and CMD is stored (20_memory.md R67). -/
theorem writeReg_idle (s : State) {r : Reg} (v : Word) (hr : r ≠ .STATUS) (hc : r ≠ .CMD) (hb : s.busy = false) :
    s.writeReg r v = s.writeInput r v := by
  simp only [State.writeReg, hr, hc, hb, Bool.false_eq_true, if_false]

/-- CONFIG's mask keeps the value modulo 2^24 (10_state.md R22). -/
theorem configMask_toNat (v : Word) : (v &&& 0x00FFFFFF).toNat = v.toNat % 2 ^ 24 :=
  (BitVec.toNat_and v _).trans (Nat.and_two_pow_sub_one_eq_mod v.toNat 24)

/-- CONFIG's mask clears bits [31:24] (10_state.md R22). -/
theorem configMask_high (v : Word) : (v &&& 0x00FFFFFF).extractLsb' 24 8 = 0 := by
  apply BitVec.eq_of_toNat_eq
  rw [BitVec.extractLsb'_toNat, configMask_toNat, Nat.shiftRight_eq_div_pow, Nat.div_eq_of_lt (Nat.mod_lt _ (by decide))]
  rfl

/-- Settles O36: the write meets no bus error, and is masked and stored when idle, dropped when busy. -/
theorem configWriteMasksReservedBits : Obligations.ConfigWriteMasksReservedBits := by
  intro s v
  have write : (s.memWrite (wordAccess .CONFIG) v).2 = s.writeReg .CONFIG v := by
    rw [memWrite_wordAccess s v rfl]
  simp only [write]
  constructor
  · intro idle
    rw [writeReg_idle s v (by decide) (by decide) idle]
    exact ⟨configMask_toNat v, configMask_high v, rfl⟩
  · intro busy
    rw [writeReg_busy s v (by decide) busy]
    exact ⟨rfl, rfl⟩

end Sys2Proof.Machine
end

section
/-! O33: what a host write inside the window does, case by case (20_memory.md R67). -/

namespace Sys2Proof.Machine

/-- A misaligned, partial or multi-register access is no word access (20_memory.md R68). -/
theorem isWordAccess_eq_false_iff (a : Access) :
    isWordAccess a = false ↔ a.off % 4 ≠ 0 ∨ a.bytes ≠ 4 ∨ a.lanes ≠ 0xF := by
  rw [isWordAccess, decide_eq_false_iff_not, not_and_or, not_and_or]

/-- A malformed write, or one to a reserved offset or a read-only register, is a bus error without effect
(20_memory.md R67). -/
theorem memWrite_busError (s : State) {a : Access} (v : Word)
    (bad : isWordAccess a = false ∨ regAt a.off = none ∨ ∃ r, regAt a.off = some r ∧ isResultReg r = true) :
    s.memWrite a v = (.busError a.off, s) := by
  obtain ⟨refused, -⟩ | ⟨r, word, found, writable, -⟩ := memWrite_cases s a v
  · exact refused
  · simp [word, found, writable] at bad

/-- A write to STATUS is heard whether the core is busy or not (20_memory.md R67). -/
theorem memWrite_STATUS (s : State) (v : Word) : s.memWrite (wordAccess .STATUS) v = (.okay, s.writeStatus v) :=
  memWrite_wordAccess s v rfl

/-- A write to any other writable register while BUSY = 1 is dropped (20_memory.md R67). -/
theorem memWrite_busy (s : State) {r : Reg} (v : Word) (writable : isResultReg r = false) (hr : r ≠ .STATUS)
    (busy : s.busy = true) : s.memWrite (wordAccess r) v = (.okay, s.dropWrite) := by
  rw [memWrite_wordAccess s v writable, writeReg_busy s v hr busy]

/-- A command written while BUSY = 0 is accepted (70_reset_and_hazards.md R251). -/
theorem memWrite_CMD_idle (s : State) (v : Word) (idle : s.busy = false) :
    s.memWrite (wordAccess .CMD) v = (.okay, s.accept v) := by
  rw [memWrite_wordAccess s v rfl]
  simp [State.writeReg, idle]

/-- An input register written while BUSY = 0 stores the word (20_memory.md R67). -/
theorem memWrite_idle (s : State) {r : Reg} (v : Word) (writable : isResultReg r = false) (hr : r ≠ .STATUS)
    (hc : r ≠ .CMD) (idle : s.busy = false) : s.memWrite (wordAccess r) v = (.okay, s.writeInput r v) := by
  rw [memWrite_wordAccess s v writable, writeReg_idle s v hr hc idle]

/-- Settles O33: the bus errors, then STATUS, then the dropped writes, then CMD and each input register. -/
theorem writeEffects : Obligations.WriteEffects := by
  intro s r v
  refine ⟨?malformed, ?readOnly, ?okay, ?clears, ?keeps, memWrite_busy s v, memWrite_CMD_idle s v, ?CONFIG, ?KEY, ?IV,
    ?CTRIN_LO, ?CTRIN_HI, ?DIN⟩
  case malformed =>
    intro a _ bad
    apply memWrite_busError
    rw [isWordAccess_eq_false_iff]
    tauto
  case readOnly => exact fun result => memWrite_busError s v (.inr (.inr ⟨r, regAt_regOffset r, result⟩))
  case okay => exact fun writable => congrArg Prod.fst (memWrite_wordAccess s v writable)
  case clears => intro bit; rw [memWrite_STATUS, State.writeStatus, if_pos bit]
  case keeps => intro bit; rw [memWrite_STATUS, State.writeStatus, if_neg (Bool.eq_false_iff.mp bit)]
  case CONFIG => exact memWrite_idle s v rfl nofun nofun
  case KEY => exact fun idle k => memWrite_idle s v rfl nofun nofun idle
  case IV => exact fun idle k => memWrite_idle s v rfl nofun nofun idle
  case CTRIN_LO => exact memWrite_idle s v rfl nofun nofun
  case CTRIN_HI => exact memWrite_idle s v rfl nofun nofun
  case DIN => exact fun idle k => memWrite_idle s v rfl nofun nofun idle

end Sys2Proof.Machine
end

section
/-! O59: the pseudo-instructions expand to the words of the commands (30_encoding.md R101). Both words that a pseudo-instruction
assembles from bytes, PROCESS's and CFG's, are those bytes packed by `le_word`. -/

namespace Sys2Proof.Machine

/-- A command word with no reserved bit set is OP, then LEN, packed as bytes (30_encoding.md R91). -/
theorem commandWord_eq_leWord (len : BitVec 8) (op : BitVec 4) :
    commandWord 0 len 0 op = leWord #v[op.setWidth 8, len, 0, 0] := by
  have lowByte : op.setWidth 8 = 0#4 ++ op := BitVec.setWidth_eq_append (by decide)
  rw [leWord_eq_append]
  exact (BitVec.append_assoc ..).trans (by simp [lowByte])

/-- PROCESS n writes the encoding of the command (30_encoding.md R101). -/
theorem encode_process_setWidth (n : BitVec 8) :
    encode (.process (n.setWidth 32)) = (n.setWidth 32 <<< 8) ||| 0x00000002 := by
  have len : (n.setWidth 32).setWidth 8 = n := by simp
  rw [encode, len, commandWord_eq_leWord]
  simp [leWord, BitVec.or_comm]

/-- CFG's word is klen, ivlen and rounds packed as bytes (30_encoding.md R101). -/
theorem cfgWord_eq_leWord (klen ivlen rounds : BitVec 8) :
    (rounds.setWidth 32 <<< 16) ||| (ivlen.setWidth 32 <<< 8) ||| klen.setWidth 32 =
      leWord #v[klen, ivlen, rounds, 0] := by
  simp [leWord, BitVec.or_comm, BitVec.or_assoc]

/-- INIT's operands are the bytes of CONFIG (30_encoding.md R97). -/
theorem operands_of_CONFIG_leWord {s : State} {b : Vector Byte 4} (h : s.CONFIG = leWord b) :
    s.klen = b[0].setWidth 32 ∧ s.ivlen = b[1].setWidth 32 ∧ s.rounds = b[2].setWidth 32 := by
  have lane (i : Fin 4) : (laneByte s.CONFIG i).setWidth 32 = b[i].setWidth 32 := by rw [h, laneByte_leWord]
  exact ⟨lane 0, lane 1, lane 2⟩

/-- Settles O59: the listed words by unfolding, the encoding of PROCESS and the fields of CFG through `le_word`. -/
theorem pseudoInstructionsExpand : Obligations.PseudoInstructionsExpand := by
  refine ⟨rfl, rfl, rfl, rfl, fun n => ⟨rfl, encode_process_setWidth n⟩, rfl, fun _ _ _ => rfl, ?fields, rfl, rfl,
    fun _ => rfl, rfl⟩
  case fields =>
    intro klen ivlen rounds s h
    exact operands_of_CONFIG_leWord (h.trans (cfgWord_eq_leWord klen ivlen rounds))

end Sys2Proof.Machine
end

section
/-! O7, O8: the word primitives and the rotator (40_datapath.md R120, R121, R123). -/

namespace Sys2Proof.Machine

/-- The carry out of bit 31 is discarded (40_datapath.md R120). -/
theorem add32_toNat (a b : Word) : (add32 a b).toNat = (a.toNat + b.toNat) % 2 ^ 32 := by
  rw [add32_eq_add, BitVec.toNat_add]

theorem add32_comm (a b : Word) : add32 a b = add32 b a := by
  rw [add32_eq_add, add32_eq_add, BitVec.add_comm]

theorem add32_assoc (a b c : Word) : add32 (add32 a b) c = add32 a (add32 b c) := by
  simp only [add32_eq_add, BitVec.add_assoc]

@[simp] theorem add32_zero (a : Word) : add32 a 0 = a :=
  (add32_eq_add a 0).trans (BitVec.add_zero a)

/-- XOR with the same word twice is the identity (40_datapath.md R123). -/
@[simp] theorem xor32_xor32_cancel (a k : Word) : xor32 (xor32 a k) k = a := by
  rw [xor32, xor32, BitVec.xor_assoc, BitVec.xor_self, BitVec.xor_zero]

/-- Settles O7, from the laws of bit-vector addition and XOR; the corner cases and examples by evaluation. -/
theorem wordPrimitives : Obligations.WordPrimitives :=
  ⟨add32_toNat, add32_comm, add32_assoc, add32_zero, by decide, by decide, by decide, by decide,
    fun _ _ => rfl, fun _ => BitVec.xor_self, fun _ => BitVec.xor_zero, xor32_xor32_cancel, by decide⟩

/-- Below 32 the amount is not reduced, and the two shifts are a rotation (40_datapath.md R121). -/
theorem rotl32_eq_rotateLeft (v : Word) {n : Nat} (hn : n < 32) : rotl32 v n = v.rotateLeft n := by
  rw [BitVec.rotateLeft_def, Nat.mod_eq_of_lt hn, rotl32]

/-- Bit i comes from bit i - n, around the end of the word when n exceeds i (40_datapath.md R121). -/
theorem rotl32_getLsbD (v : Word) (n i : Nat) (hn : n < 32) (hi : i < 32) :
    (rotl32 v n).getLsbD i = v.getLsbD ((i + 32 - n) % 32) := by
  rw [rotl32_eq_rotateLeft v hn, BitVec.getLsbD_rotateLeft, Nat.mod_eq_of_lt hn]
  by_cases h : i < n
  case pos =>
    have wraps : 32 - n + i = (i + 32 - n) % 32 := by omega
    simp only [h, decide_true, cond_true, wraps]
  case neg =>
    have shifts : i - n = (i + 32 - n) % 32 := by omega
    simp only [h, hi, decide_false, decide_true, cond_false, Bool.true_and, shifts]

/-- Rotating by 0 leaves every bit in its place (40_datapath.md R121). -/
@[simp] theorem rotl32_by_zero (v : Word) : rotl32 v 0 = v := by
  apply BitVec.eq_of_getLsbD_eq
  intro i hi
  rw [rotl32_getLsbD v 0 i (by decide) hi, Nat.sub_zero, Nat.add_mod_right, Nat.mod_eq_of_lt hi]

/-- A word whose bits are all equal is fixed by every rotation (40_datapath.md R121). -/
theorem rotl32_of_bits_equal {v : Word} {b : Bool} (hv : ∀ i < 32, v.getLsbD i = b) {n : Nat} (hn : n < 32) :
    rotl32 v n = v := by
  apply BitVec.eq_of_getLsbD_eq
  intro i hi
  rw [rotl32_getLsbD v n i hn hi, hv _ (Nat.mod_lt _ (by decide)), hv i hi]

/-- Settles O8, from the bit law; the corner cases and examples by evaluation. -/
theorem rotatorMovesBits : Obligations.RotatorMovesBits :=
  have zeros : ∀ i < 32, (0 : Word).getLsbD i = false := by decide
  have ones : ∀ i < 32, (0xFFFFFFFF : Word).getLsbD i = true := by decide
  ⟨rotl32_getLsbD, rotl32_by_zero, fun _ hn => ⟨rotl32_of_bits_equal zeros hn, rotl32_of_bits_equal ones hn⟩,
    by decide, by decide, by decide, by decide, by decide, by decide⟩

end Sys2Proof.Machine
end

section
/-! O10, O11, O12: quarter-rounds in place and the passes made of them (40_datapath.md R125, R127, R128, R134). -/

namespace Sys2Proof.Machine

/-- The indices a quarter-round at `n` reads and writes (40_datapath.md R125). -/
def Lanes.indices (n : Lanes) : List (Fin 16) := [n.i, n.j, n.k, n.l]

theorem Lanes.mem_indices {n : Lanes} {m : Fin 16} : m ∈ n.indices ↔ m = n.i ∨ m = n.j ∨ m = n.k ∨ m = n.l := by
  simp [Lanes.indices]

theorem Lanes.indices_nodup_iff {n : Lanes} :
    n.indices.Nodup ↔ (n.i ≠ n.j ∧ n.i ≠ n.k ∧ n.i ≠ n.l) ∧ (n.j ≠ n.k ∧ n.j ≠ n.l) ∧ n.k ≠ n.l := by
  simp [Lanes.indices]

/-- What is read depends only on the words at the indices (40_datapath.md R125). -/
theorem Lanes.read_congr {x y : Block} {n : Lanes} (h : ∀ m ∈ n.indices, x[m] = y[m]) : n.read x = n.read y := by
  simp only [Lanes.indices, List.forall_mem_cons] at h
  obtain ⟨hi, hj, hk, hl, -⟩ := h
  rw [Lanes.read, Lanes.read, hi, hj, hk, hl]

/-! One quarter-round -/

/-- A quarter-round in place leaves every other word alone (40_datapath.md R125). -/
theorem qrApply_getElem_of_not_mem (x : Block) {n : Lanes} {m : Fin 16} (hm : m ∉ n.indices) :
    (qrApply x n)[m] = x[m] := by
  simp only [Lanes.mem_indices, not_or] at hm
  obtain ⟨hi, hj, hk, hl⟩ := hm
  rw [qrApply_getElem, if_neg (Ne.symm hl), if_neg (Ne.symm hk), if_neg (Ne.symm hj), if_neg (Ne.symm hi)]

/-- What a quarter-round writes depends only on the four words it reads (40_datapath.md R125). -/
theorem qrApply_getElem_congr {x y : Block} {n : Lanes} (h : n.read x = n.read y) {m : Fin 16} (hm : m ∈ n.indices) :
    (qrApply x n)[m] = (qrApply y n)[m] := by
  rw [qrApply_getElem, qrApply_getElem, h]
  obtain rfl | rfl | rfl | rfl := Lanes.mem_indices.mp hm <;> simp only [↓reduceIte]

/-- At four distinct indices the words after are QR of the words before (40_datapath.md R125). -/
theorem read_qrApply_self (x : Block) {n : Lanes} (hn : n.indices.Nodup) : n.read (qrApply x n) = qr (n.read x) := by
  obtain ⟨⟨hij, hik, hil⟩, ⟨hjk, hjl⟩, hkl⟩ := Lanes.indices_nodup_iff.mp hn
  rw [Lanes.read]
  simp only [qrApply_getElem, hij.symm, hik.symm, hil.symm, hjk.symm, hjl.symm, hkl.symm, ↓reduceIte]

/-- A quarter-round elsewhere leaves what `n` reads alone (40_datapath.md R125). -/
theorem read_qrApply_of_disjoint (x : Block) {n p : Lanes} (h : n.indices.Disjoint p.indices) :
    n.read (qrApply x p) = n.read x :=
  Lanes.read_congr fun _ hm => qrApply_getElem_of_not_mem x (h hm)

/-- Settles O10, from what a quarter-round in place writes and what it leaves; the example by evaluation. -/
theorem quarterRoundInPlace : Obligations.QuarterRoundInPlace := by
  refine ⟨fun x n hij hik hil hjk hjl hkl => ⟨?written, fun m hi hj hk hl => ?kept⟩, by decide⟩
  case written => exact read_qrApply_self x (Lanes.indices_nodup_iff.mpr ⟨⟨hij, hik, hil⟩, ⟨hjk, hjl⟩, hkl⟩)
  case kept =>
    have outside : m ∉ n.indices := by simp only [Lanes.mem_indices, hi, hj, hk, hl, or_self, not_false_eq_true]
    exact qrApply_getElem_of_not_mem x outside

/-! A pass over lanes that do not overlap -/

/-- The word at an index of `n` does not depend on whether `p` ran before or after `n`. -/
theorem qrApply_qrApply_getElem {n p : Lanes} (h : n.indices.Disjoint p.indices) (x : Block) {m : Fin 16}
    (hm : m ∈ n.indices) : (qrApply (qrApply x n) p)[m] = (qrApply (qrApply x p) n)[m] := by
  rw [qrApply_getElem_of_not_mem _ (h hm)]
  exact qrApply_getElem_congr (read_qrApply_of_disjoint x h).symm hm

/-- Quarter-rounds at disjoint indices may be swapped (40_datapath.md R134). -/
theorem qrApply_comm_of_disjoint {n p : Lanes} (h : n.indices.Disjoint p.indices) (x : Block) :
    qrApply (qrApply x n) p = qrApply (qrApply x p) n := by
  have pointwise (m : Fin 16) : (qrApply (qrApply x n) p)[m] = (qrApply (qrApply x p) n)[m] := by
    by_cases hn : m ∈ n.indices
    case pos => exact qrApply_qrApply_getElem h x hn
    case neg =>
      by_cases hp : m ∈ p.indices
      case pos => exact (qrApply_qrApply_getElem h.symm x hp).symm
      case neg => simp only [qrApply_getElem_of_not_mem, hn, hp, not_false_eq_true]
  ext i hi : 1
  exact pointwise ⟨i, hi⟩

/-- No index occurs twice among the lanes of a pass (40_datapath.md R127, R128). -/
def lanesDisjoint (ns : List Lanes) : Prop := (ns.flatMap Lanes.indices).Nodup

theorem lanesDisjoint_cons {n : Lanes} {ns : List Lanes} :
    lanesDisjoint (n :: ns) ↔
      (n.indices.Nodup ∧ ∀ p ∈ ns, n.indices.Disjoint p.indices) ∧ lanesDisjoint ns := by
  simp only [lanesDisjoint, List.nodup_flatMap, List.forall_mem_cons, List.pairwise_cons, Function.onFun]
  tauto

/-- Lanes that partition 0..15 do not overlap. -/
theorem lanesDisjoint_of_partition {ns : List Lanes} (h : (ns.flatMap Lanes.indices).Perm (List.finRange 16)) :
    lanesDisjoint ns :=
  h.nodup_iff.mpr (List.nodup_finRange 16)

/-- A pass elsewhere leaves what `n` reads alone. -/
theorem read_applyLanes_of_disjoint {n : Lanes} {ns : List Lanes} (h : ∀ p ∈ ns, n.indices.Disjoint p.indices)
    (x : Block) : n.read (applyLanes ns x) = n.read x := by
  induction ns generalizing x with
  | nil => rfl
  | cons p ps ih =>
    obtain ⟨hp, hps⟩ := List.forall_mem_cons.mp h
    exact (ih hps (qrApply x p)).trans (read_qrApply_of_disjoint x hp)

/-- A pass is QR on each of its lanes (40_datapath.md R127, R128). -/
theorem read_applyLanes {n : Lanes} {ns : List Lanes} (h : lanesDisjoint ns) (hn : n ∈ ns) (x : Block) :
    n.read (applyLanes ns x) = qr (n.read x) := by
  induction ns generalizing x with
  | nil => cases hn
  | cons p ps ih =>
    obtain ⟨⟨hp, hps⟩, htail⟩ := lanesDisjoint_cons.mp h
    change n.read (applyLanes ps (qrApply x p)) = qr (n.read x)
    obtain rfl | hn := List.mem_cons.mp hn
    · rw [read_applyLanes_of_disjoint hps, read_qrApply_self x hp]
    · rw [ih htail hn, read_qrApply_of_disjoint x (hps n hn).symm]

/-- Any two quarter-rounds of a pass may be swapped (40_datapath.md R134). -/
theorem qrApply_comm_of_mem {ns : List Lanes} (h : lanesDisjoint ns) :
    ∀ n ∈ ns, ∀ p ∈ ns, ∀ x, qrApply (qrApply x n) p = qrApply (qrApply x p) n := by
  obtain ⟨-, hdisjoint⟩ := List.nodup_flatMap.mp h
  refine List.Pairwise.forall_of_forall_of_flip (fun _ _ _ => rfl) (hdisjoint.imp qrApply_comm_of_disjoint) ?flipped
  case flipped => exact hdisjoint.imp fun hnp x => (qrApply_comm_of_disjoint hnp x).symm

/-- The order of the quarter-rounds of a pass does not matter (40_datapath.md R127, R128, R134). -/
theorem applyLanes_perm {ns ps : List Lanes} (h : lanesDisjoint ps) (hperm : ns.Perm ps) (x : Block) :
    applyLanes ns x = applyLanes ps x :=
  (hperm.symm.foldl_eq' (qrApply_comm_of_mem h) x).symm

/-- A pass of four lanes is QR on the c-th of them, for each c. -/
theorem read_applyLanes_toList {v : Vector Lanes 4} (h : lanesDisjoint v.toList) (c : Fin 4) (x : Block) :
    v[c].read (applyLanes v.toList x) = qr (v[c].read x) :=
  read_applyLanes h (Vector.mem_toList_iff.mpr (Vector.getElem_mem c.isLt)) x

/-! The column pass and the diagonal pass -/

theorem columnLanes_partition : (columnLanes.toList.flatMap Lanes.indices).Perm (List.finRange 16) := by decide

theorem diagonalLanes_partition : (diagonalLanes.toList.flatMap Lanes.indices).Perm (List.finRange 16) := by decide

/-- Column c holds the words c, 4 + c, 8 + c and 12 + c (40_datapath.md R127). -/
theorem read_columnLanes (c : Fin 4) (x : Block) :
    columnLanes[c].read x = ⟨x[c.val], x[4 + c.val], x[8 + c.val], x[12 + c.val]⟩ := by
  fin_cases c <;> rfl

/-- Diagonal c goes down one row and one column to the right at each step, around the right edge (40_datapath.md R128). -/
theorem read_diagonalLanes (c : Fin 4) (x : Block) :
    diagonalLanes[c].read x =
      ⟨x[c.val], x[4 + (c.val + 1) % 4], x[8 + (c.val + 2) % 4], x[12 + (c.val + 3) % 4]⟩ := by
  fin_cases c <;> rfl

/-- Settles O11: the columns partition the block, so the pass is QR on each, in any order; the example by evaluation. -/
theorem columnPassInAnyOrder : Obligations.ColumnPassInAnyOrder := by
  have disjoint := lanesDisjoint_of_partition columnLanes_partition
  refine ⟨fun x c => ?columns, columnLanes_partition, fun x _ hns => applyLanes_perm disjoint hns x, by decide⟩
  case columns =>
    rw [← read_columnLanes, ← read_columnLanes]
    exact read_applyLanes_toList disjoint c x

/-- Settles O12: the diagonals partition the block, so the pass is QR on each, in any order; the asymmetry of QR and the
example by evaluation. -/
theorem diagonalPassInAnyOrder : Obligations.DiagonalPassInAnyOrder := by
  have disjoint := lanesDisjoint_of_partition diagonalLanes_partition
  refine ⟨fun x c => ?diagonals, diagonalLanes_partition, fun x _ hns => applyLanes_perm disjoint hns x, by decide,
    by decide⟩
  case diagonals =>
    rw [← read_diagonalLanes, ← read_diagonalLanes]
    exact read_applyLanes_toList disjoint c x

end Sys2Proof.Machine
end

section
/-! O13, O14: the round loop and the serializer (40_datapath.md R130, R132). -/

namespace Sys2Proof.Machine

/-- Two rounds more are one double-round more, at the end, while the count fits its byte (40_datapath.md R130). -/
theorem permute_add_two (S : Block) {R : BitVec 8} (h : R.toNat ≤ 253) :
    permute S (R + 2) = doubleRound (permute S R) := by
  have half : (R + 2).toNat / 2 = R.toNat / 2 + 1 := by
    have sum : (R + 2).toNat = R.toNat + 2 := BitVec.toNat_add_of_lt (Nat.lt_succ_of_le (Nat.add_le_add_right h 2))
    omega
  rw [permute, half, doubleRounds_succ, ← permute]

/-- Settles O13, from the recurrence of the round loop; at fixed round counts it unfolds. -/
theorem roundLoopRunsHalfTheRounds : Obligations.RoundLoopRunsHalfTheRounds :=
  ⟨fun _ => rfl, fun S _ _ h => permute_add_two S (Nat.le_succ_of_le h), fun _ => rfl⟩

/-- Byte 4w + i of a serialized block is lane i of word w (40_datapath.md R132). -/
theorem serialize_getElem_lane (kw : Block) (w : Fin 16) (i : Fin 4) :
    (serialize kw)[4 * w.val + i.val] = laneByte kw[w] i := by
  have word : (4 * w.val + i.val) / 4 = w.val := by omega
  have lane : (4 * w.val + i.val) % 4 = i.val := by omega
  simp only [serialize_getElem, word, lane, Fin.eta, Fin.getElem_fin]

/-- Settles O14: each byte is a lane of its word. -/
theorem serializerIsLittleEndian : Obligations.SerializerIsLittleEndian := by
  refine ⟨fun kw w i => ?weights, fun kw => ⟨serialize_getElem_lane kw 0 0, serialize_getElem_lane kw 15 3⟩⟩
  case weights => rw [serialize_getElem_lane, laneByte_toNat]

end Sys2Proof.Machine
end

section
/-! O17: INIT completes with the first of its checks that fails (41_init.md R151 to R153, 60_exceptions.md R216). -/

namespace Sys2Proof.Machine

/-! INIT's operands are the low three base-256 digits of CONFIG (30_encoding.md R97) -/

/-- Widening a lane to a word keeps its value. -/
theorem laneByte_setWidth_toNat (w : Word) (i : Fin 4) :
    ((laneByte w i).setWidth 32).toNat = w.toNat / 256 ^ i.val % 256 := by
  rw [BitVec.toNat_setWidth_of_le (by decide), laneByte_toNat]

theorem klen_eq_iff (s : State) (w : Word) : s.klen = w ↔ s.CONFIG.toNat % 256 = w.toNat := by
  have value : s.klen.toNat = s.CONFIG.toNat / 1 % 256 := laneByte_setWidth_toNat s.CONFIG 0
  rw [← BitVec.toNat_inj, value, Nat.div_one]

theorem ivlen_eq_iff (s : State) (w : Word) : s.ivlen = w ↔ s.CONFIG.toNat / 256 % 256 = w.toNat := by
  have value : s.ivlen.toNat = s.CONFIG.toNat / 256 % 256 := laneByte_setWidth_toNat s.CONFIG 1
  rw [← BitVec.toNat_inj, value]

theorem rounds_toNat (s : State) : s.rounds.toNat = s.CONFIG.toNat / 65536 % 256 :=
  laneByte_setWidth_toNat s.CONFIG 2

/-- Bit 0 of a word is its parity. -/
theorem getLsbD_zero_eq_decide (w : Word) : w.getLsbD 0 = decide (w.toNat % 2 = 1) :=
  Nat.testBit_zero w.toNat

theorem getLsbD_zero_eq_true_iff (w : Word) : w.getLsbD 0 = true ↔ w.toNat % 2 = 1 := by
  rw [getLsbD_zero_eq_decide, decide_eq_true_iff]

theorem getLsbD_zero_eq_false_iff (w : Word) : w.getLsbD 0 = false ↔ w.toNat % 2 = 0 := by
  rw [getLsbD_zero_eq_decide, decide_eq_false_iff_not, Nat.mod_two_not_eq_one]

/-! The checks -/

/-- KEYLEN is checked first (41_init.md R151). -/
theorem initCheck_klen {s : State} (bad : s.klen ≠ 16 ∧ s.klen ≠ 32) : s.initCheck = .INVALID_KEY_LENGTH :=
  if_pos bad

/-- With KEYLEN in order, IVLEN decides next (41_init.md R152). -/
theorem initCheck_ivlen {s : State} (key : s.klen = 16 ∨ s.klen = 32) (iv : s.ivlen ≠ 8) :
    s.initCheck = .INVALID_IV_LENGTH := by
  rw [State.initCheck, if_neg (by tauto), if_pos iv]

/-- With KEYLEN and IVLEN in order, ROUNDS decides (41_init.md R153). -/
theorem initCheck_rounds {s : State} (key : s.klen = 16 ∨ s.klen = 32) (iv : s.ivlen = 8)
    (bad : s.rounds.toNat < 2 ∨ s.rounds.getLsbD 0 = true) : s.initCheck = .INVALID_ROUND_COUNT := by
  rw [State.initCheck, if_neg (by tauto), if_neg (not_not_intro iv), if_pos bad]

/-- A command whose results carry no error completes with the code of its check (60_exceptions.md R211). -/
theorem complete_ERR (s : State) (e : ErrCode) {st : Staged} (h : st.code = .NONE) : (s.complete e st).ERR = e := by
  obtain ⟨rfl, passed⟩ | ⟨-, failed⟩ := complete_cases s e st
  · rw [passed, commit_ERR, h]
  · rw [failed, fail_ERR]

/-- Settles O17: INIT completes with the code of its check, and each case of the check, said of the digits of CONFIG, is said of
the operands. -/
theorem initChecksInOrder : Obligations.InitChecksInOrder := by
  intro s klen ivlen rounds
  have code : (s.complete s.initCheck s.initResults).ERR = s.initCheck := complete_ERR s s.initCheck rfl
  have key16 : s.klen = 16 ↔ klen = 16 := klen_eq_iff s 16
  have key32 : s.klen = 32 ↔ klen = 32 := klen_eq_iff s 32
  have iv : s.ivlen = 8 ↔ ivlen = 8 := ivlen_eq_iff s 8
  have value : s.rounds.toNat = rounds := rounds_toNat s
  refine ⟨_, execInit_eq s, ?_⟩
  simp only [code, ne_eq, ← key16, ← key32, ← iv, ← value, ← getLsbD_zero_eq_true_iff, ← getLsbD_zero_eq_false_iff]
  refine ⟨?key, ?iv, ?rounds, ?pass⟩
  case key => exact initCheck_klen
  case iv => exact fun ⟨hk, hv⟩ => initCheck_ivlen hk hv
  case rounds => exact fun ⟨hk, hv, bad⟩ => initCheck_rounds hk hv bad
  case pass => exact (initCheck_NONE_iff s).mpr

end Sys2Proof.Machine
end

section
/-! O20: PROCESS without an engine or with another length than 64 fails and writes only ERR (42_process.md R171, R172). -/

namespace Sys2Proof.Machine

/-! What a failed command keeps (60_exceptions.md R211) -/

theorem sameInputs_fail (s : State) (e : ErrCode) : s.sameInputs (s.fail e) :=
  ⟨fail_CONFIG s e, fail_KEY s e, fail_IV s e, fail_CTRIN_LO s e, fail_CTRIN_HI s e, fail_DIN s e⟩

theorem sameEngine_fail (s : State) (e : ErrCode) : s.sameEngine (s.fail e) :=
  ⟨fail_S s e, fail_RND s e, fail_INITD s e, fail_K256 s e⟩

theorem sameAround_fail (s : State) (e : ErrCode) : s.sameAround (s.fail e) :=
  ⟨fail_host s e, fail_replies s e, fail_turns s e⟩

/-- The block counter is part of the engine (43_counter.md R190). -/
theorem counter_of_sameEngine {s t : State} (h : s.sameEngine t) : t.counter = s.counter := by
  obtain ⟨sameS, -⟩ := h
  rw [State.counter, State.counter, sameS]

/-- A command whose check does not pass fails with that check's code (60_exceptions.md R211). -/
theorem exec_of_check_ne_NONE {i : Instr} {s : State} (h : s.check i ≠ .NONE) :
    exec i s = .next (s.fail (s.check i)) := by
  obtain ⟨st, completes⟩ := exec_eq_complete i s
  rw [completes, complete_error s st h]

/-- A missing engine is reported whatever the length, and the length only with an engine (42_process.md R171, R172). -/
theorem processCheck_of_refused {s : State} {blen : Word} (h : s.INITD = false ∨ blen ≠ 64) :
    s.processCheck blen = if s.INITD = false then .NOT_INITIALIZED else .INVALID_BLOCK_LENGTH := by
  by_cases noEngine : s.INITD = false
  case pos => rw [processCheck_no_engine s blen noEngine, if_pos noEngine]
  case neg =>
    have engine : s.INITD = true := Bool.eq_true_of_not_eq_false noEngine
    rw [processCheck_length s blen engine (h.resolve_left noEngine), if_neg noEngine]

/-- Settles O20: the check does not pass, so PROCESS fails with its code, and `fail` keeps all else. -/
theorem processRefusals : Obligations.ProcessRefusals := by
  intro s blen refused
  have notPassed : s.check (.process blen) ≠ .NONE := by
    intro passed
    obtain ⟨engine, length⟩ := (processCheck_NONE_iff s blen).mp passed
    simp [engine, length] at refused
  have engine := sameEngine_fail s (s.check (.process blen))
  have idle := (busy_eq_false_iff _).mpr (fail_FSM s (s.check (.process blen)))
  exact ⟨_, exec_of_check_ne_NONE notPassed, processCheck_of_refused refused, idle, engine, counter_of_sameEngine engine,
    fail_DOUT s _, fail_DVALID s _, fail_BWERR s _, sameInputs_fail s _, sameAround_fail s _⟩

end Sys2Proof.Machine
end

section
/-! O26, O27: SETCTR loads the counter from CTRIN, or fails without an engine (43_counter.md R195 to R197). -/

namespace Sys2Proof.Machine

/-! What a completed command keeps, whatever it commits (70_reset_and_hazards.md R257) -/

theorem sameInputs_commit (s : State) (st : Staged) : s.sameInputs (s.commit st) :=
  ⟨commit_CONFIG s st, commit_KEY s st, commit_IV s st, commit_CTRIN_LO s st, commit_CTRIN_HI s st, commit_DIN s st⟩

theorem sameAround_commit (s : State) (st : Staged) : s.sameAround (s.commit st) :=
  ⟨commit_host s st, commit_replies s st, commit_turns s st⟩

/-! The counter words of a block (43_counter.md R190) -/

theorem set_counter_getElem_lo (S : Block) (lo hi : Word) : ((S.set 12 lo).set 13 hi)[12] = lo := by
  rw [Vector.getElem_set_ne _ _ (by decide), Vector.getElem_set_self]

theorem set_counter_getElem_hi (S : Block) (lo hi : Word) : ((S.set 12 lo).set 13 hi)[13] = hi :=
  Vector.getElem_set_self _

/-- Writing the counter leaves the fourteen other words alone. -/
theorem set_counter_getElem_of_ne (S : Block) (lo hi : Word) {i : Fin 16} (hlo : i ≠ 12) (hhi : i ≠ 13) :
    ((S.set 12 lo).set 13 hi)[i] = S[i] := by
  have ne_lo : 12 ≠ i.val := fun h => hlo (Fin.ext h.symm)
  have ne_hi : 13 ≠ i.val := fun h => hhi (Fin.ext h.symm)
  rw [Fin.getElem_fin, Fin.getElem_fin, Vector.getElem_set_ne _ _ ne_hi, Vector.getElem_set_ne _ _ ne_lo]

/-! SETCTR -/

/-- With an engine SETCTR passes its check and commits CTRIN (43_counter.md R197). -/
theorem execSetctr_of_engine {s : State} (engine : s.INITD = true) :
    exec .setctr s = .next (s.commit s.setctrResults) := by
  rw [execSetctr_eq, (setctrCheck_NONE_iff s).mpr engine, complete_NONE]

/-- SETCTR writes S in the counter words only (43_counter.md R197). -/
theorem commit_setctrResults_S (s : State) :
    (s.commit s.setctrResults).S = (s.S.set 12 s.CTRIN_LO).set 13 s.CTRIN_HI :=
  commitS_counter s.S s.CTRIN_LO s.CTRIN_HI .NONE none

/-- Without an engine SETCTR fails, and with NOT_INITIALIZED (43_counter.md R196). -/
theorem execSetctr_no_engine {s : State} (noEngine : s.INITD = false) :
    exec .setctr s = .next (s.fail .NOT_INITIALIZED) := by
  have refused : s.setctrCheck = .NOT_INITIALIZED := if_pos noEngine
  rw [execSetctr_eq, refused, complete_error s _ (by decide)]

/-- Settles O26: the check passes, and the commit writes the counter words of S and stages neither an engine nor an output. -/
theorem setctrLoadsTheCounter : Obligations.SetctrLoadsTheCounter := by
  intro s engine
  have latched : (s.commit s.setctrResults).INITD = true := by rw [commit_INITD, engine, Bool.true_or]
  have valid : (s.commit s.setctrResults).DVALID = s.DVALID := Bool.or_false s.DVALID
  refine ⟨_, execSetctr_of_engine engine, ?lo, ?hi, fun i hlo hhi => ?others, commit_RND s _, commit_K256 s _, latched,
    commit_ERR s _, (busy_eq_false_iff _).mpr (commit_FSM s _), sameInputs_commit s _, commit_DOUT s _, valid,
    commit_BWERR s _, sameAround_commit s _⟩
  all_goals rw [commit_setctrResults_S]
  case lo => exact set_counter_getElem_lo s.S s.CTRIN_LO s.CTRIN_HI
  case hi => exact set_counter_getElem_hi s.S s.CTRIN_LO s.CTRIN_HI
  case others => exact set_counter_getElem_of_ne s.S s.CTRIN_LO s.CTRIN_HI hlo hhi

/-- Settles O27: SETCTR fails, and `fail` writes only ERR and the return to IDLE. -/
theorem setctrNeedsAnEngine : Obligations.SetctrNeedsAnEngine := by
  intro s noEngine
  have idle := (busy_eq_false_iff _).mpr (fail_FSM s .NOT_INITIALIZED)
  exact ⟨_, execSetctr_no_engine noEngine, fail_ERR s _, idle, sameEngine_fail s _, sameInputs_fail s _,
    fail_DOUT s _, fail_DVALID s _, fail_BWERR s _, sameAround_fail s _⟩

end Sys2Proof.Machine
end

section
/-! O28: every command completes with the code of its check, and a failing one writes only that (60_exceptions.md R211). -/

namespace Sys2Proof.Machine

/-- A command completes in IDLE, whether its check passed or not (70_reset_and_hazards.md R257). -/
theorem complete_FSM (s : State) (e : ErrCode) (st : Staged) : (s.complete e st).FSM = .IDLE := by
  obtain ⟨-, passed⟩ | ⟨-, failed⟩ := complete_cases s e st
  · rw [passed, commit_FSM]
  · rw [failed, fail_FSM]

/-- The results a command completes with carry no error of their own: its check alone decides the code
(70_reset_and_hazards.md R257). -/
theorem exec_eq_complete_of_code_NONE (i : Instr) (s : State) :
    ∃ st : Staged, st.code = .NONE ∧ exec i s = .next (s.complete (s.check i) st) := by
  cases i with
  | init => exact ⟨s.initResults, rfl, execInit_eq s⟩
  | process blen => exact ⟨s.processResults, rfl, execProcess_eq blen s⟩
  | setctr => exact ⟨s.setctrResults, rfl, execSetctr_eq s⟩

/-- Settles O28: completion takes the code of the check, and when that is an error it is `fail`, which keeps all else. -/
theorem failedCommandWritesOnlyErr : Obligations.FailedCommandWritesOnlyErr := by
  intro i s
  obtain ⟨st, noError, completes⟩ := exec_eq_complete_of_code_NONE i s
  refine ⟨_, completes, complete_FSM s _ st, complete_ERR s _ noError, fun failed => ?_⟩
  rw [complete_error s st failed]
  exact ⟨sameInputs_fail s _, fail_DOUT s _, sameEngine_fail s _, fail_BWERR s _, fail_DVALID s _, sameAround_fail s _⟩

end Sys2Proof.Machine
end

section
/-! O34: which accesses raise a bus error, and that it has no effect (60_exceptions.md R214, R215, R217). -/

namespace Sys2Proof.Machine

/-! The register map, by offset (20_memory.md R61) -/

/-- The reserved aligned offsets of the window (20_memory.md R69). -/
theorem regAt_eq_none_iff {off : Nat} (window : off < 0x100) (aligned : off % 4 = 0) :
    regAt off = none ↔ off = 0x0C ∨ (0x48 ≤ off ∧ off ≤ 0x7C) := by
  fun_cases regAt off
  all_goals simp only [reduceCtorEq, true_iff, false_iff]
  all_goals omega

/-- The offsets of the read-only registers: CTR_LO, CTR_HI and the DOUT bank (20_memory.md R70). -/
theorem regAt_result_iff {off : Nat} (window : off < 0x100) :
    (∃ r, regAt off = some r ∧ isResultReg r = true) ↔ off = 0x40 ∨ off = 0x44 ∨ 0xC0 ≤ off := by
  fun_cases regAt off
  all_goals simp [isResultReg]
  all_goals omega

/-- The accesses that name no register: malformed, or at a reserved offset (20_memory.md R68, R69). -/
theorem names_no_register_iff {a : Access} (window : a.off < 0x100) :
    isWordAccess a = false ∨ regAt a.off = none ↔
      a.off % 4 ≠ 0 ∨ a.bytes ≠ 4 ∨ a.lanes ≠ 0xF ∨ a.off = 0x0C ∨ (0x48 ≤ a.off ∧ a.off ≤ 0x7C) := by
  rw [isWordAccess_eq_false_iff]
  by_cases aligned : a.off % 4 = 0
  case pos => rw [regAt_eq_none_iff window aligned, or_assoc, or_assoc]
  case neg => simp [aligned]

/-! The responses -/

/-- A read is answered OKAY, or is a bus error that returns 0 and has no effect (60_exceptions.md R215). -/
theorem memRead_okay_or_busError (s : State) (a : Access) :
    (s.memRead a).1 = .okay ∨ s.memRead a = (.busError a.off, 0, s) := by
  obtain ⟨refused, -⟩ | ⟨r, -, -, ⟨-, -, draw⟩ | ⟨-, value⟩⟩ := memRead_cases s a
  · exact .inr refused
  · exact .inl (congrArg Prod.fst draw)
  · exact .inl (congrArg Prod.fst value)

/-- A write is answered OKAY, or is a bus error without effect (60_exceptions.md R215, R217). -/
theorem memWrite_okay_or_busError (s : State) (a : Access) (v : Word) :
    (s.memWrite a v).1 = .okay ∨ s.memWrite a v = (.busError a.off, s) := by
  obtain ⟨refused, -⟩ | ⟨r, -, -, -, written⟩ := memWrite_cases s a v
  · exact .inr refused
  · exact .inl (congrArg Prod.fst written)

/-- A read raises a bus error when it names no register, and only then, busy or not (60_exceptions.md R214). -/
theorem memRead_busError_iff (s : State) (a : Access) :
    (s.memRead a).1 = .busError a.off ↔ isWordAccess a = false ∨ regAt a.off = none := by
  obtain ⟨refused, bad⟩ | ⟨r, word, found, ⟨-, -, answer⟩ | ⟨-, answer⟩⟩ := memRead_cases s a
  · simp only [refused, bad]
  · simp [answer, word, found]
  · simp [answer, word, found]

/-- A write raises a bus error when it names no register or a read-only one, and only then, busy or not
(60_exceptions.md R214). -/
theorem memWrite_busError_iff (s : State) (a : Access) (v : Word) :
    (s.memWrite a v).1 = .busError a.off ↔
      isWordAccess a = false ∨ regAt a.off = none ∨ ∃ r, regAt a.off = some r ∧ isResultReg r = true := by
  obtain ⟨refused, bad⟩ | ⟨r, word, found, writable, answer⟩ := memWrite_cases s a v
  · simp only [refused, bad]
  · simp [answer, word, found, writable]

/-- Settles O34: a transaction is refused by what its access names, and the register map says which offsets those are. -/
theorem busErrorCasesHaveNoEffect : Obligations.BusErrorCasesHaveNoEffect := by
  intro s a v window bad
  refine ⟨?read, ?write, fun notOkay => ?readEffect, fun notOkay => ?writeEffect⟩
  case read => rw [memRead_busError_iff, names_no_register_iff window]
  case write => rw [memWrite_busError_iff, ← or_assoc, names_no_register_iff window, regAt_result_iff window]
  case readEffect =>
    rw [(memRead_okay_or_busError s a).resolve_left notOkay]
    exact ⟨rfl, rfl⟩
  case writeEffect => rw [(memWrite_okay_or_busError s a v).resolve_left notOkay]

end Sys2Proof.Machine
end

section
/-! O35: a write while BUSY = 1 is dropped, and the command in progress goes on without notice of it
(70_reset_and_hazards.md R252, R253). -/

namespace Sys2Proof.Machine

/-! What a dropped write keeps (70_reset_and_hazards.md R252) -/

theorem sameInputs_dropWrite (s : State) : s.sameInputs s.dropWrite :=
  ⟨dropWrite_CONFIG s, dropWrite_KEY s, dropWrite_IV s, dropWrite_CTRIN_LO s, dropWrite_CTRIN_HI s, dropWrite_DIN s⟩

theorem sameEngine_dropWrite (s : State) : s.sameEngine s.dropWrite :=
  ⟨dropWrite_S s, dropWrite_RND s, dropWrite_INITD s, dropWrite_K256 s⟩

theorem sameInternal_dropWrite (s : State) : s.sameInternal s.dropWrite :=
  ⟨dropWrite_FSM s, dropWrite_CMDL s, dropWrite_DRI s, dropWrite_QRI s, dropWrite_X s, dropWrite_KW s, dropWrite_staged s⟩

theorem sameAround_dropWrite (s : State) : s.sameAround s.dropWrite :=
  ⟨dropWrite_host s, dropWrite_replies s, dropWrite_turns s⟩

/-- A dropped write and a state of the FSM commute, in the completing state FINISH too (70_reset_and_hazards.md R252). -/
theorem tick_dropWrite (s : State) : s.dropWrite.tick = s.tick.dropWrite := by
  by_cases finish : s.FSM = .FINISH
  case pos =>
    have finishDropped : s.dropWrite.FSM = .FINISH := finish
    rw [tick_FINISH finish, tick_FINISH finishDropped]
    rfl
  case neg =>
    calc s.dropWrite.tick
        = { s.tick with BWERR := true, replies := s.replies, draws := s.draws } :=
          tick_mod s true s.replies s.draws finish
      _ = s.tick.dropWrite :=
          congrArg State.dropWrite (tick_mod s s.BWERR s.replies s.draws finish).symm

/-- Settles O35: the write is dropped, which keeps all but BWERR, and dropping commutes with the FSM's next state. -/
theorem writesWhileBusyAreDropped : Obligations.WritesWhileBusyAreDropped := by
  intro s r v busy writable notStatus
  exact ⟨s.dropWrite, memWrite_busy s v writable notStatus busy, dropWrite_BWERR s, sameInputs_dropWrite s,
    dropWrite_DOUT s, sameEngine_dropWrite s, dropWrite_DVALID s, dropWrite_ERR s, sameInternal_dropWrite s,
    sameAround_dropWrite s, tick_dropWrite s⟩

end Sys2Proof.Machine
end

section
/-! O37: an idle core accepts every command word, and acceptance writes CMDL, FSM, DVALID and ERR only
(70_reset_and_hazards.md R251). -/

namespace Sys2Proof.Machine

/-! What acceptance keeps (70_reset_and_hazards.md R251) -/

theorem sameInputs_accept (s : State) (v : Word) : s.sameInputs (s.accept v) :=
  ⟨accept_CONFIG s v, accept_KEY s v, accept_IV s v, accept_CTRIN_LO s v, accept_CTRIN_HI s v, accept_DIN s v⟩

theorem sameEngine_accept (s : State) (v : Word) : s.sameEngine (s.accept v) :=
  ⟨accept_S s v, accept_RND s v, accept_INITD s v, accept_K256 s v⟩

theorem sameAround_accept (s : State) (v : Word) : s.sameAround (s.accept v) :=
  ⟨accept_host s v, accept_replies s v, accept_turns s v⟩

/-- An accepted command makes the core busy (10_state.md R24). -/
theorem accept_busy (s : State) (v : Word) : (s.accept v).busy = true := by
  rw [busy_eq_true_iff, accept_FSM]
  decide

/-- Settles O37: the idle core accepts the word, and `accept` writes the four registers and keeps all else. -/
theorem acceptanceWritesFourThings : Obligations.AcceptanceWritesFourThings := by
  intro s v idle
  exact ⟨s.accept v, memWrite_CMD_idle s v idle, accept_CMDL s v, accept_FSM s v, accept_busy s v, accept_DVALID s v,
    accept_ERR s v, sameInputs_accept s v, accept_DOUT s v, sameEngine_accept s v, accept_BWERR s v, accept_DRI s v,
    accept_QRI s v, accept_X s v, accept_KW s v, accept_staged s v, sameAround_accept s v⟩

end Sys2Proof.Machine
end

section
/-! O1, O2: the decoder and the encoder are inverse to each other (30_encoding.md R91, R92, R96, R98). -/

namespace Sys2Proof

/-! The four fields of a command word (30_encoding.md R91) -/

section

variable (rsv1 : BitVec 16) (len : BitVec 8) (rsv0 op : BitVec 4)

@[simp] theorem fieldOP_commandWord : fieldOP (commandWord rsv1 len rsv0 op) = op :=
  BitVec.extractLsb'_append_eq_right

@[simp] theorem fieldRSV0_commandWord : fieldRSV0 (commandWord rsv1 len rsv0 op) = rsv0 :=
  (BitVec.extractLsb'_append_eq_of_le (by decide)).trans BitVec.extractLsb'_append_eq_right

@[simp] theorem fieldLEN_commandWord : fieldLEN (commandWord rsv1 len rsv0 op) = len :=
  (BitVec.extractLsb'_append_eq_of_le (by decide)).trans
    ((BitVec.extractLsb'_append_eq_of_le (by decide)).trans BitVec.extractLsb'_append_eq_right)

@[simp] theorem fieldRSV1_commandWord : fieldRSV1 (commandWord rsv1 len rsv0 op) = rsv1 :=
  (BitVec.extractLsb'_append_eq_of_le (by decide)).trans
    ((BitVec.extractLsb'_append_eq_of_le (by decide)).trans BitVec.extractLsb'_append_eq_left)

end

/-- A word is made of its fields. -/
theorem commandWord_fields (w : Word) : commandWord (fieldRSV1 w) (fieldLEN w) (fieldRSV0 w) (fieldOP w) = w := by
  have high : fieldRSV1 w ++ fieldLEN w = w.extractLsb' 8 24 := BitVec.extractLsb'_append_extractLsb'_eq_extractLsb' rfl
  have upper : fieldRSV1 w ++ fieldLEN w ++ fieldRSV0 w = w.extractLsb' 4 28 := by
    rw [high]
    exact BitVec.extractLsb'_append_extractLsb'_eq_extractLsb' rfl
  have whole : fieldRSV1 w ++ fieldLEN w ++ fieldRSV0 w ++ fieldOP w = w.extractLsb' 0 32 := by
    rw [upper]
    exact BitVec.extractLsb'_append_extractLsb'_eq_extractLsb' rfl
  exact whole.trans BitVec.extractLsb'_eq_self

/-- The decoder, said of the fields (30_encoding.md R96). -/
theorem decode_commandWord (len : BitVec 8) (op : BitVec 4) :
    decode (commandWord 0 len 0 op) =
      if op = 0x1 then if len = 0 then .ok .init else .error .lenNotZero
      else if op = 0x2 then .ok (.process (len.setWidth 32))
      else if op = 0x3 then if len = 0 then .ok .setctr else .error .lenNotZero
      else .error .noSuchOp := by
  simp [decode]

/-- Decoding undoes encoding: the fields of an encoded command are the ones it was made of. -/
theorem decode_encode {i : Instr} (fits : i.wellFormed = true) : decode (encode i) = .ok i := by
  cases i with
  | init => exact decode_commandWord 0 0x1
  | setctr => exact decode_commandWord 0 0x3
  | process blen =>
    have small : blen.toNat < 2 ^ 8 := by simpa [Instr.wellFormed] using fits
    have operand : (blen.setWidth 8).setWidth 32 = blen := by
      apply BitVec.eq_of_toNat_eq
      simp only [BitVec.toNat_setWidth]
      omega
    rw [encode, decode_commandWord, if_neg (by decide), if_pos rfl, operand]

/-- A legal word has no reserved bit set (30_encoding.md R94). -/
theorem eq_commandWord_of_decode {w : Word} {i : Instr} (h : decode w = .ok i) :
    w = commandWord 0 (fieldLEN w) 0 (fieldOP w) := by
  have reserved : fieldRSV1 w = 0 ∧ fieldRSV0 w = 0 := by
    by_contra set
    rw [decode, if_pos (by tauto)] at h
    cases h
  obtain ⟨rsv1, rsv0⟩ := reserved
  rw [← rsv1, ← rsv0, commandWord_fields]

/-- Encoding undoes decoding: a clause of the decoder that takes a word fixes all four of its fields. -/
theorem encode_of_decode {w : Word} {i : Instr} (h : decode w = .ok i) : i.wellFormed = true ∧ encode i = w := by
  have fields := eq_commandWord_of_decode h
  generalize fieldLEN w = len, fieldOP w = op at fields
  subst fields
  rw [decode_commandWord] at h
  split_ifs at h with opInit lenZero opProcess opSetctr lenZero
  all_goals obtain rfl := Except.ok.inj h
  · exact ⟨rfl, by rw [opInit, lenZero, encode]⟩
  · have short : (len.setWidth 32).toNat < 256 := by
      rw [BitVec.toNat_setWidth_of_le (by decide)]
      exact len.isLt
    have operand : (len.setWidth 32).setWidth 8 = len := by simp
    exact ⟨decide_eq_true short, by rw [opProcess, encode, operand]⟩
  · exact ⟨rfl, by rw [opSetctr, lenZero, encode]⟩

/-- Settles O1: the decoder reads off an encoded command the fields the encoder put there. -/
theorem decodeOfEncode : Obligations.DecodeOfEncode :=
  fun _ fits => decode_encode fits

/-- Settles O2: the decoder takes a word only if all its fields are those the encoder writes. -/
theorem decodedWordIsItsEncoding : Obligations.DecodedWordIsItsEncoding :=
  fun _ _ h => encode_of_decode h

/-- The legal words are the encodings (30_encoding.md R98). -/
theorem decode_eq_ok_iff {w : Word} {i : Instr} : decode w = .ok i ↔ i.wellFormed = true ∧ w = encode i := by
  constructor
  · intro h
    obtain ⟨fits, word⟩ := encode_of_decode h
    exact ⟨fits, word.symm⟩
  · rintro ⟨fits, rfl⟩
    exact decode_encode fits

end Sys2Proof
end

section
/-! O3 to O6: the legal words, and what an illegal one does (30_encoding.md R91 to R98). -/

namespace Sys2Proof

open Sys2Proof.Machine

/-! ### Legal words -/

/-- No two well-formed commands share a word (30_encoding.md R98). -/
theorem encode_injective {i j : Instr} (hi : i.wellFormed = true) (hj : j.wellFormed = true)
    (h : encode i = encode j) : i = j := by
  have same : Except.ok (ε := IllegalWord) i = .ok j := by rw [← decode_encode hi, h, decode_encode hj]
  exact Except.ok.inj same

/-- Every well-formed command, PROCESS once per length (30_encoding.md R98). -/
def legalCommands : List Instr :=
  .init :: .setctr :: (List.finRange 256).map fun n => .process (BitVec.ofNat 32 n.val)

theorem mem_legalCommands {i : Instr} : i ∈ legalCommands ↔ i.wellFormed = true := by
  cases i with
  | init => simp [legalCommands, Instr.wellFormed]
  | setctr => simp [legalCommands, Instr.wellFormed]
  | process blen =>
    simp only [legalCommands, List.mem_cons, reduceCtorEq, List.mem_map, List.mem_finRange, true_and, false_or,
      Instr.process.injEq, Instr.wellFormed, decide_eq_true_eq]
    constructor
    · rintro ⟨n, rfl⟩
      exact lt_of_le_of_lt (Nat.mod_le _ _) n.isLt
    · exact fun short => ⟨⟨blen.toNat, short⟩, BitVec.ofNat_toNat ..⟩

theorem legalCommands_nodup : legalCommands.Nodup := by
  have lengths : Function.Injective fun n : Fin 256 => Instr.process (BitVec.ofNat 32 n.val) := by
    intro m n h
    have words := congrArg BitVec.toNat (Instr.process.inj h)
    simp only [BitVec.toNat_ofNat] at words
    omega
  simp [legalCommands, (List.nodup_finRange 256).map lengths]

/-- The legal words: the encodings of the legal commands. -/
theorem mem_legalWords {w : Word} : w ∈ legalCommands.map encode ↔ ∃ i, decode w = .ok i := by
  simp only [List.mem_map, mem_legalCommands, decode_eq_ok_iff, eq_comm (a := w)]

theorem legalWords_nodup : (legalCommands.map encode).Nodup :=
  legalCommands_nodup.map_on fun _ hi _ hj => encode_injective (mem_legalCommands.mp hi) (mem_legalCommands.mp hj)

/-- PROCESS with 64 bytes and an engine passes its check and commits its results (42_process.md R173). -/
theorem execProcess_of_engine {s : State} (engine : s.INITD = true) :
    exec (.process 64) s = .next (s.commit s.processResults) := by
  rw [execProcess_eq, processCheck_ok s engine, complete_NONE]

/-- Settles O3: the legal words are the encodings of `legalCommands`; a PROCESS word of another length is refused, and one of
64 bytes commits an output block. -/
theorem legalWordsAreExactly258 : Obligations.LegalWordsAreExactly258 := by
  refine ⟨⟨legalCommands.map encode, legalWords_nodup, ?count, fun _ => mem_legalWords⟩, fun w => ?init, fun w => ?setctr,
    fun w ll => ?process, fun s ll other => ?refused, fun s engine => ?block⟩
  case count => simp [legalCommands]
  case init => exact decode_eq_ok_iff.trans (and_iff_right rfl)
  case setctr => exact decode_eq_ok_iff.trans (and_iff_right rfl)
  case process =>
    have fits : (Instr.process (ll.setWidth 32)).wellFormed = true := by
      apply decide_eq_true
      rw [BitVec.toNat_setWidth_of_le (by decide)]
      exact ll.isLt
    rw [decode_eq_ok_iff, and_iff_right fits, encode_process_setWidth]
  case refused =>
    have length : ll.setWidth 32 ≠ 64 := fun h => other (by simpa using congrArg (BitVec.setWidth 8) h)
    obtain ⟨t, answers, code, -⟩ := processRefusals s (ll.setWidth 32) (.inr length)
    refine ⟨t, answers, ?_⟩
    rw [code]
    split_ifs
    · exact .inr rfl
    · exact .inl rfl
  case block => exact ⟨_, execProcess_of_engine engine, rfl, by simp [processResults_eq, State.stagedBlock]⟩

/-! ### The rows of opcode_table.json -/

/-- A field of a masked word is the masked field. -/
theorem extractLsb'_eq_of_covers {r : OpcodeRow} {w : Word} (h : r.covers w = true) (start len : Nat)
    (full : r.mask.extractLsb' start len = BitVec.allOnes len) :
    w.extractLsb' start len = r.value.extractLsb' start len := by
  have masked : w &&& r.mask = r.value := by simpa [OpcodeRow.covers] using h
  rw [← masked, BitVec.extractLsb'_and, full, BitVec.and_allOnes]

/-- A row whose mask takes every bit holds one word. -/
theorem covers_iff_of_allOnes {r : OpcodeRow} (full : r.mask = BitVec.allOnes 32) (w : Word) :
    r.covers w = true ↔ w = r.value := by
  rw [OpcodeRow.covers, full, BitVec.and_allOnes, beq_iff_eq]

/-- The row of PROCESS fixes every field but LEN. -/
theorem exists_decode_process_iff (w : Word) :
    (∃ blen, decode w = .ok (.process blen)) ↔ (Instr.process 0).row.covers w = true := by
  constructor
  · rintro ⟨blen, h⟩
    obtain ⟨-, rfl⟩ := encode_of_decode h
    exact (Laws.InOpcodeRow.process blen).1
  · intro h
    have rsv1 : fieldRSV1 w = 0 := extractLsb'_eq_of_covers h 16 16 (by decide)
    have rsv0 : fieldRSV0 w = 0 := extractLsb'_eq_of_covers h 4 4 (by decide)
    have op : fieldOP w = 0x2 := extractLsb'_eq_of_covers h 0 4 (by decide)
    refine ⟨(fieldLEN w).setWidth 32, ?_⟩
    rw [← commandWord_fields w, rsv1, rsv0, op, decode_commandWord]
    simp

theorem decode_init_iff (w : Word) : decode w = .ok .init ↔ Instr.init.row.covers w = true := by
  rw [decode_eq_ok_iff, covers_iff_of_allOnes (by decide)]
  exact and_iff_right rfl

theorem decode_setctr_iff (w : Word) : decode w = .ok .setctr ↔ Instr.setctr.row.covers w = true := by
  rw [decode_eq_ok_iff, covers_iff_of_allOnes (by decide)]
  exact and_iff_right rfl

/-- Settles O4: each row holds the words of its command, and a word decodes to one command only. -/
theorem decoderFollowsOpcodeTable : Obligations.DecoderFollowsOpcodeTable := by
  refine ⟨decode_init_iff, exists_decode_process_iff, decode_setctr_iff, ?disjoint⟩
  simp only [opcodeRows, List.pairwise_cons, List.mem_cons, List.not_mem_nil, or_false, forall_eq_or_imp, forall_eq,
    ← decode_init_iff, ← exists_decode_process_iff, ← decode_setctr_iff]
  refine ⟨⟨?_, ?_⟩, ?_, by simp⟩
  · rintro w ⟨init, blen, process⟩
    exact nomatch init.symm.trans process
  · rintro w ⟨init, setctr⟩
    exact nomatch init.symm.trans setctr
  · rintro w ⟨⟨blen, process⟩, setctr⟩
    exact nomatch process.symm.trans setctr

/-- Settles O5, word by word. -/
theorem writtenOutWordsDecode : Obligations.WrittenOutWordsDecode :=
  ⟨by decide, by decide, by decide, by decide, by decide, by decide, by decide, by decide⟩

/-! ### Illegal words -/

/-- The weights of OP and LEN in a word with no reserved bit set (30_encoding.md R91). -/
theorem commandWord_toNat (len : BitVec 8) (op : BitVec 4) :
    (commandWord 0 len 0 op).toNat = 256 * len.toNat + op.toNat := by
  rw [commandWord_eq_leWord, leWord_toNat]
  simp
  omega

/-- The numbers the legal words stand for (30_encoding.md R98). -/
theorem toNat_of_decode {w : Word} {i : Instr} (h : decode w = .ok i) :
    w.toNat = 1 ∨ w.toNat = 3 ∨ ∃ len < 256, w.toNat = 256 * len + 2 := by
  obtain ⟨-, rfl⟩ := encode_of_decode h
  cases i with
  | init => exact .inl rfl
  | setctr => exact .inr (.inl rfl)
  | process blen => exact .inr (.inr ⟨_, (blen.setWidth 8).isLt, commandWord_toNat _ 0x2⟩)

end Sys2Proof

namespace Sys2Proof.Machine

/-! What two moves in a row keep, each keeps -/

theorem sameInputs_trans {s t u : State} (first : s.sameInputs t) (second : t.sameInputs u) : s.sameInputs u := by
  unfold State.sameInputs at *
  simp_all only [and_self]

theorem sameEngine_trans {s t u : State} (first : s.sameEngine t) (second : t.sameEngine u) : s.sameEngine u := by
  unfold State.sameEngine at *
  simp_all only [and_self]

theorem sameAround_trans {s t u : State} (first : s.sameAround t) (second : t.sameAround u) : s.sameAround u := by
  unfold State.sameAround at *
  simp_all only [and_self]

/-- An accepted word that decodes to no command fails with ILLEGAL_COMMAND (60_exceptions.md R213). -/
theorem runCommand_of_error {s : State} {e : IllegalWord} (h : decode s.CMDL = .error e) :
    runCommand s = .next (s.fail .ILLEGAL_COMMAND) := by
  rw [runCommand, h]
  rfl

/-- From DECODE the core's merged move is the whole command (70_reset_and_hazards.md R258). -/
theorem coreTurn_run_of_DECODE {s : State} (h : s.FSM = .DECODE) : coreTurn .run s = runCommand s :=
  if_pos h

/-- Settles O6: such a word is the number of no legal word; acceptance and `fail` write only what they name. -/
theorem illegalWordOnlySetsErr : Obligations.IllegalWordOnlySetsErr := by
  intro s w idle bad
  have illegal : ∃ e, decode w = .error e := by
    cases decoded : decode w with
    | error e => exact ⟨e, rfl⟩
    | ok i =>
      have number := toNat_of_decode decoded
      omega
  obtain ⟨e, he⟩ := illegal
  have fails : coreTurn .run (s.accept w) = .next ((s.accept w).fail .ILLEGAL_COMMAND) := by
    rw [coreTurn_run_of_DECODE (accept_FSM s w), runCommand_of_error (s := s.accept w) he]
  exact ⟨⟨e, he⟩, _, fails, fail_ERR _ _, (busy_eq_false_iff _).mpr (fail_FSM _ _),
    (fail_DVALID _ _).trans (accept_DVALID s w), (fail_BWERR _ _).trans (accept_BWERR s w),
    sameInputs_trans (sameInputs_accept s w) (sameInputs_fail _ _), (fail_DOUT _ _).trans (accept_DOUT s w),
    sameEngine_trans (sameEngine_accept s w) (sameEngine_fail _ _),
    sameAround_trans (sameAround_accept s w) (sameAround_fail _ _)⟩

end Sys2Proof.Machine
end

section
/-! O16, O18: the combiner, and what a valid INIT and a valid PROCESS write (40_datapath.md R133, 41_init.md R156 to R161,
42_process.md R173 to R175). -/

namespace Sys2Proof.Machine

/-! ### The combiner -/

theorem combine_getElem (input ks : Vector Byte 64) (i : Fin 64) : (combine input ks)[i] = input[i] ^^^ ks[i] := by
  simp [combine]

theorem combineWords_getElem (din kw : Block) (w : Fin 16) : (combineWords din kw)[w] = din[w] ^^^ kw[w] := by
  simp [combineWords, xor32]

/-- Settles O16: combining bytes is combining words, and packing undoes serializing. -/
theorem combinerBytesAndWordsAgree : Obligations.CombinerBytesAndWordsAgree := by
  refine ⟨combine_getElem, fun din kw => ?words, combineWords_getElem, by decide⟩
  rw [combine_serialize, packWords_serialize]

/-- Combining twice with one keystream is the identity (40_datapath.md R135). -/
theorem combineWords_combineWords_cancel (din kw : Block) : combineWords (combineWords din kw) kw = din := by
  ext i hi : 1
  simp [combineWords]

/-! ### INIT -/

/-- A valid INIT passes its checks (41_init.md R151 to R153). -/
theorem execInit_of_legal {s : State} (legal : s.initCheck = .NONE) : exec .init s = .next (s.commit s.initResults) := by
  rw [execInit_eq, legal, complete_NONE]

/-- INIT writes the whole of S, slot by slot (41_init.md R157). -/
theorem commit_initResults_S (s : State) : (s.commit s.initResults).S = Config.layout.map s.slotValue := rfl

/-- The slots of a 32-byte key (41_init.md R154, R155). -/
theorem slots_of_key32 {s : State} (key : s.klen = 32) :
    Config.layout.map s.slotValue = (#v[0x61707865, 0x3320646e, 0x79622d32, 0x6b206574, s.KEY[0], s.KEY[1], s.KEY[2],
      s.KEY[3], s.KEY[4], s.KEY[5], s.KEY[6], s.KEY[7], 0, 0, s.IV[0], s.IV[1]] : Block) := by
  simp [Config.layout, State.slotValue, State.keySlots, Config.constants, Config.const32, key]

/-- The slots of a 16-byte key: it is there twice (41_init.md R154, R158). -/
theorem slots_of_key16 {s : State} (key : s.klen ≠ 32) :
    Config.layout.map s.slotValue = (#v[0x61707865, 0x3120646e, 0x79622d36, 0x6b206574, s.KEY[0], s.KEY[1], s.KEY[2],
      s.KEY[3], s.KEY[0], s.KEY[1], s.KEY[2], s.KEY[3], 0, 0, s.IV[0], s.IV[1]] : Block) := by
  have key : ¬s.klen = 32#32 := key
  simp [Config.layout, State.slotValue, State.keySlots, Config.constants, Config.const16, Config.key16Fill, key]

/-- ROUNDS fits the byte it is latched in (10_state.md R41). -/
theorem latchedRounds_toNat (s : State) : (s.rounds.setWidth 8).toNat = s.rounds.toNat := by
  rw [BitVec.toNat_setWidth, rounds_toNat, Nat.mod_mod]

/-- Settles O18: the checks pass, and the commit writes the slots, the latches and nothing else. -/
theorem initBuildsEngine : Obligations.InitBuildsEngine := by
  intro s key iv atLeast2 even
  have legal : s.initCheck = .NONE :=
    (initCheck_NONE_iff s).mpr ⟨key, iv, atLeast2, (getLsbD_zero_eq_false_iff _).mpr even⟩
  have valid : (s.commit s.initResults).DVALID = s.DVALID := Bool.or_false s.DVALID
  refine ⟨_, execInit_of_legal legal, ?slots, latchedRounds_toNat s, decide_eq_true_iff, Bool.or_true s.INITD, commit_ERR s _,
    (busy_eq_false_iff _).mpr (commit_FSM s _), sameInputs_commit s _, commit_DOUT s _, valid, commit_BWERR s _,
    sameAround_commit s _⟩
  rw [commit_initResults_S]
  split_ifs with key256
  · exact slots_of_key32 key256
  · exact slots_of_key16 key256

/-! ### What PROCESS commits -/

/-- The block PROCESS outputs (42_process.md R173, R174). -/
theorem commit_processResults_DOUT (s : State) :
    (s.commit s.processResults).DOUT = combineWords s.DIN (blockFn s.S s.RND) := by
  rw [processResults_eq]
  rfl

/-- PROCESS writes S in the counter words only (42_process.md R175). -/
theorem commit_processResults_S (s : State) :
    (s.commit s.processResults).S =
      (s.S.set 12 (inc64 s.S[13] s.S[12]).2).set 13 (inc64 s.S[13] s.S[12]).1 := by
  rw [processResults_eq]
  rfl

end Sys2Proof.Machine
end

section
/-! O19, O21 to O25: the counter increment, and blocks that advance it (42_process.md R173 to R182, 43_counter.md R191, R192,
R199). -/

namespace Sys2Proof.Machine

/-- A word appended below another weighs less than 2^32. -/
theorem toNat_append_word (hi lo : Word) : (hi ++ lo : BitVec 64).toNat = 2 ^ 32 * hi.toNat + lo.toNat := by
  rw [BitVec.toNat_append, ← Nat.shiftLeft_add_eq_or_of_lt lo.isLt, Nat.shiftLeft_eq, Nat.mul_comm]

/-- The high word takes the carry exactly when the low word wraps (43_counter.md R192). -/
theorem inc64_fst (hi lo : Word) : (inc64 hi lo).1 = if lo = 0xFFFFFFFF then add32 hi 1 else hi := by
  simp only [inc64, add32_one_eq_zero_iff]

/-- `inc64` adds one to the 64-bit counter (43_counter.md R192). -/
theorem inc64_eq_add_one (hi lo : Word) :
    (inc64 hi lo).1 ++ (inc64 hi lo).2 = (hi ++ lo : BitVec 64) + 1 := by
  have low : (inc64 hi lo).2 = add32 lo 1 := rfl
  have one : (1 : Word).toNat = 1 := rfl
  have one64 : (1 : BitVec 64).toNat = 1 := rfl
  apply BitVec.eq_of_toNat_eq
  rw [inc64_fst, low, BitVec.toNat_add, toNat_append_word, toNat_append_word]
  by_cases wraps : lo = 0xFFFFFFFF
  · have top : lo.toNat = 2 ^ 32 - 1 := congrArg BitVec.toNat wraps
    rw [if_pos wraps, add32_toNat, add32_toNat]
    omega
  · have small : lo.toNat ≠ 2 ^ 32 - 1 := fun h => wraps (BitVec.eq_of_toNat_eq h)
    rw [if_neg wraps, add32_toNat]
    omega

/-- Settles O23; the examples by evaluation. -/
theorem counterIncrementIsPlusOne : Obligations.CounterIncrementIsPlusOne :=
  ⟨inc64_eq_add_one, by decide, by decide, by decide, by decide, by decide⟩

/-- PROCESS advances the counter by one (42_process.md R173). -/
theorem commit_processResults_counter (s : State) : (s.commit s.processResults).counter = s.counter + 1 := by
  rw [State.counter, commit_processResults_S, set_counter_getElem_lo, set_counter_getElem_hi]
  exact inc64_eq_add_one _ _

/-! ### Blocks -/

/-- Settles O19: the check passes, and the commit writes the output block, DVALID and the counter. -/
theorem processOutputs : Obligations.ProcessOutputs := by
  intro s engine
  have latched : (s.commit s.processResults).INITD = true := by rw [commit_INITD, engine, Bool.true_or]
  have valid : (s.commit s.processResults).DVALID = true := Bool.or_true s.DVALID
  refine ⟨_, execProcess_of_engine engine, fun w => ?words, fun j => ?bytes, commit_processResults_counter s, valid,
    commit_ERR s _, (busy_eq_false_iff _).mpr (commit_FSM s _), fun i hlo hhi => ?others, commit_RND s _, commit_K256 s _,
    latched, sameInputs_commit s _, commit_BWERR s _, sameAround_commit s _⟩
  case words =>
    rw [commit_processResults_DOUT, combineWords_getElem]
    simp [blockFn, feedFwd]
  case bytes =>
    rw [State.outputBlock, State.inputBlock, commit_processResults_DOUT, ← combine_serialize, combine_getElem]
  case others =>
    rw [commit_processResults_S]
    exact set_counter_getElem_of_ne s.S _ _ hlo hhi

/-- Two states with one engine have one keystream block. -/
theorem blockFn_of_sameEngine {s u : State} (same : s.sameEngine u) : blockFn u.S u.RND = blockFn s.S s.RND := by
  obtain ⟨sameS, sameRND, -⟩ := same
  rw [sameS, sameRND]

/-- An engine is one in every state with the same engine. -/
theorem engine_of_sameEngine {s u : State} (same : s.sameEngine u) (engine : s.INITD = true) : u.INITD = true := by
  obtain ⟨-, -, sameINITD, -⟩ := same
  exact sameINITD.trans engine

/-- Settles O21: both blocks are combined with one keystream, and combining twice with it is the identity. -/
theorem decryptionInvertsEncryption : Obligations.DecryptionInvertsEncryption := by
  intro s u engine same
  refine ⟨_, execProcess_of_engine engine, fun input => ⟨_, execProcess_of_engine (engine_of_sameEngine same engine), ?_⟩⟩
  rw [commit_processResults_DOUT, input, commit_processResults_DOUT, blockFn_of_sameEngine same,
    combineWords_combineWords_cancel]

/-- Settles O22: both blocks are combined with one keystream, which cancels word by word. -/
theorem inputBitsFlipOnlyTheirOutputBits : Obligations.InputBitsFlipOnlyTheirOutputBits := by
  intro s u engine same
  refine ⟨_, _, execProcess_of_engine engine, execProcess_of_engine (engine_of_sameEngine same engine), fun w => ?_⟩
  rw [commit_processResults_DOUT, commit_processResults_DOUT, blockFn_of_sameEngine same, combineWords_getElem,
    combineWords_getElem]
  generalize (blockFn s.S s.RND)[w] = k
  calc s.DIN[w] ^^^ k ^^^ (u.DIN[w] ^^^ k)
      = s.DIN[w] ^^^ u.DIN[w] ^^^ (k ^^^ k) := by ac_rfl
    _ = s.DIN[w] ^^^ u.DIN[w] := by rw [BitVec.xor_self, BitVec.xor_zero]

/-! ### The increment, state by state -/

/-- CINC_LO goes to FINISH unless the low word wraps (43_counter.md R191). -/
theorem tick_CINC_LO_eq {s : State} (h : s.FSM = .CINC_LO) :
    s.tick = { s with
      staged := { s.staged with ctrLo := some (inc64 s.S[13] s.S[12]).2 }
      FSM := if s.S[12] = 0xFFFFFFFF then .CINC_HI else .FINISH } := by
  rw [tick_CINC_LO h]
  simp only [State.tickCincLo, add32_one_eq_zero_iff, inc64]

/-- The low word wraps to 0 (43_counter.md R192). -/
theorem inc64_snd_of_wrap (hi : Word) {lo : Word} (wraps : lo = 0xFFFFFFFF) : (inc64 hi lo).2 = 0 :=
  (add32_one_eq_zero_iff lo).mpr wraps

/-- Settles O24: CINC_LO stages the low word, and only on a wrap CINC_HI stages the high one after it. -/
theorem counterFsmVisitsHighOnWrap : Obligations.CounterFsmVisitsHighOnWrap := by
  intro s atLo noHi
  have low := tick_CINC_LO_eq atLo
  refine ⟨fun keeps => ?noWrap, fun wraps => ?wrap, by rw [low], by rw [low]⟩
  case noWrap =>
    rw [low, if_neg keeps]
    exact ⟨rfl, by cases h : s.staged.ctrLo <;> simp [Staged.commitS, noHi, h]⟩
  case wrap =>
    have atHi : s.tick.FSM = .CINC_HI := by rw [low, if_pos wraps]
    have stagedLo : s.tick.staged.ctrLo = some 0 := by rw [low, inc64_snd_of_wrap _ wraps]
    have sameS : s.tick.S = s.S := by rw [low]
    have stagedHi : (inc64 s.S[13] s.S[12]).1 = add32 s.tick.S[13] 1 := by rw [inc64_fst, if_pos wraps, sameS]
    rw [tick_CINC_HI atHi]
    exact ⟨atHi, rfl, stagedLo, congrArg some stagedHi.symm, sameS⟩

/-! ### Chains of blocks -/

/-- A block leaves an engine, with the counter advanced by one (43_counter.md R199). -/
theorem counter_of_execProcess {s t : State} (engine : s.INITD = true) (h : exec (.process 64) s = .next t) :
    t.INITD = true ∧ t.counter = s.counter + 1 := by
  rw [execProcess_of_engine engine] at h
  obtain rfl := Host.Outcome.next.inj h
  exact ⟨by rw [commit_INITD, engine, Bool.true_or], commit_processResults_counter s⟩

/-- Settles O25, by induction on the number of blocks: each starts from the engine the one before left. -/
theorem blocksAdvanceCounterByTheirNumber : Obligations.BlocksAdvanceCounterByTheirNumber := by
  rintro f n ⟨engine, blocks⟩
  have chain : ∀ k ≤ n, (f k).INITD = true ∧ (f k).counter = (f 0).counter + BitVec.ofNat 64 k := by
    intro k
    induction k with
    | zero => exact fun _ => ⟨engine, (BitVec.add_zero _).symm⟩
    | succ k ih =>
      intro hk
      obtain ⟨initd, counter⟩ := ih (Nat.le_of_succ_le hk)
      obtain ⟨u, same, block⟩ := blocks k hk
      obtain ⟨initd', counter'⟩ := counter_of_execProcess (engine_of_sameEngine same initd) block
      refine ⟨initd', ?_⟩
      rw [counter', counter_of_sameEngine same, counter, BitVec.add_assoc]
      exact congrArg _ (BitVec.ofNat_add k 1).symm
  exact (chain n le_rfl).2

end Sys2Proof.Machine
end

section
/-! The command under way: what it commits, how each state of the FSM carries it on, and how many states are left
(70_reset_and_hazards.md R255 to R259). -/

namespace Sys2Proof.Machine

/-! ### What the command in CMDL commits -/

/-- The results of a command whose check passes. -/
def State.results (s : State) : Instr → Staged
  | .init => s.initResults
  | .process _ => s.processResults
  | .setctr => s.setctrResults

theorem exec_eq_complete_results (i : Instr) (s : State) : exec i s = .next (s.complete (s.check i) (s.results i)) := by
  cases i <;> rfl

theorem runCommand_of_ok {s : State} {i : Instr} (decoded : decode s.CMDL = .ok i) : runCommand s = exec i s := by
  rw [runCommand, decoded]

theorem runCommand_of_check {s : State} {i : Instr} (decoded : decode s.CMDL = .ok i) (passes : s.check i = .NONE) :
    runCommand s = .next (s.commit (s.results i)) := by
  rw [runCommand_of_ok decoded, exec_eq_complete_results, passes, complete_NONE]

theorem runCommand_of_check_ne {s : State} {i : Instr} (decoded : decode s.CMDL = .ok i) (fails : s.check i ≠ .NONE) :
    runCommand s = .next (s.fail (s.check i)) := by
  rw [runCommand_of_ok decoded, exec_of_check_ne_NONE fails]

/-- What the command in CMDL commits: the results of a command that passes its check, or the code of the failure. -/
def State.outcome (s : State) : Staged :=
  match decode s.CMDL with
  | .error _ => Staged.failed .ILLEGAL_COMMAND
  | .ok i => if s.check i = .NONE then s.results i else Staged.failed (s.check i)

/-- The whole command is one commit (70_reset_and_hazards.md R257). -/
theorem runCommand_eq_commit (s : State) : runCommand s = .next (s.commit s.outcome) := by
  unfold State.outcome
  cases decoded : decode s.CMDL with
  | error e => exact runCommand_of_error decoded
  | ok i =>
    by_cases passes : s.check i = .NONE
    · simp only [runCommand_of_check decoded passes, if_pos passes]
    · simp only [runCommand_of_check_ne decoded passes, if_neg passes]
      rfl

/-! ### What the command does not see -/

/-- The state with another BWERR, host, observation, schedule and count of draws: nothing of it reaches a command. -/
def State.withAround (s : State) (bw : Bool) (h : HostAgent) (r : List Reply) (ts : List Turn) (n : Nat) : State :=
  { s with BWERR := bw, host := h, replies := r, turns := ts, draws := n }

section

variable (s : State) (bw : Bool) (h : HostAgent) (r : List Reply) (ts : List Turn) (n : Nat)

theorem commit_withAround (st : Staged) :
    (s.withAround bw h r ts n).commit st = ((s.commit st).withAround bw h r ts n).toIdle := rfl

theorem outcome_withAround : (s.withAround bw h r ts n).outcome = s.outcome := rfl

/-- A command on its way stays so, whatever happens around it: in FINISH, what is staged commits as the whole command does. -/
theorem onItsWay_withAround (way : s.onItsWay) : (s.withAround bw h r ts n).onItsWay := by
  cases f : s.FSM
  all_goals
    have f' : (s.withAround bw h r ts n).FSM = _ := f
    unfold State.onItsWay at way ⊢
    rw [f] at way
    rw [f']
  case FINISH =>
    have commits : s.commit s.outcome = s.commit s.staged :=
      Host.Outcome.next.inj ((runCommand_eq_commit s).symm.trans way)
    calc runCommand (s.withAround bw h r ts n)
        = .next ((s.withAround bw h r ts n).commit s.outcome) := by
          rw [runCommand_eq_commit, outcome_withAround]
      _ = .next ((s.withAround bw h r ts n).commit s.staged) := by rw [commit_withAround, commits, commit_withAround]
  all_goals exact way

end

/-! ### Each state of the FSM carries the command on -/

/-- In FINISH a command is on its way when committing what is staged is the whole command. -/
theorem onItsWay_of_FINISH {s : State} (finish : s.FSM = .FINISH) (commits : runCommand s = .next (s.commit s.staged)) :
    s.onItsWay := by
  simpa only [State.onItsWay, finish] using commits

/-- A command that stages what commits as its results is on its way to FINISH. -/
theorem onItsWay_finish {s : State} {i : Instr} {st : Staged} (decoded : decode s.CMDL = .ok i)
    (passes : s.check i = .NONE) (commits : s.commit (s.results i) = s.commit st) :
    ({ s with staged := st, FSM := .FINISH } : State).onItsWay :=
  onItsWay_of_FINISH rfl ((runCommand_internal ..).trans
    ((runCommand_of_check decoded passes).trans (congrArg Host.Outcome.next commits)))

theorem tickDecode_onItsWay {s : State} (rounds : s.INITD = true → legalRounds s.RND) : s.tickDecode.onItsWay := by
  obtain ⟨e, decoded, next⟩ | ⟨i, decoded, fails, next⟩ | ⟨i, decoded, passes, next⟩ := tickDecode_cases s
  all_goals rw [next]
  · exact onItsWay_of_FINISH rfl (runCommand_of_error (s := s.pendError _) decoded)
  · have same : (s.pendError (s.check i)).check i = s.check i := by cases i <;> rfl
    refine onItsWay_of_FINISH rfl ?_
    rw [runCommand_of_check_ne (s := s.pendError (s.check i)) decoded (by rwa [same]), same]
    rfl
  · cases i with
    | init => exact ⟨decoded, passes⟩
    | process blen =>
      obtain ⟨engine, rfl⟩ := (processCheck_NONE_iff s blen).mp passes
      exact ⟨⟨decoded, engine, rounds engine⟩, rfl⟩
    | setctr => exact ⟨decoded, (setctrCheck_NONE_iff s).mp passes, rfl⟩

/-- Within a double-round BLK_ROUND goes on to the next quarter-round (70_reset_and_hazards.md R256). -/
theorem tickRound_within {s : State} (q : s.QRI ≠ 7) (left : s.DRI.val < s.RND.toNat / 2) :
    s.tickRound = { s with X := qrApply s.X (roundLanes s.QRI), QRI := s.QRI + 1, FSM := .BLK_ROUND } := by
  simp only [State.tickRound, if_neg q, if_pos left]

/-- After the last quarter-round of a double-round BLK_ROUND goes on to the next double-round, if one is left. -/
theorem tickRound_end {s : State} (q : s.QRI = 7) :
    s.tickRound = { s with
      X := qrApply s.X (roundLanes s.QRI)
      QRI := 0
      DRI := s.DRI + 1
      FSM := if (s.DRI + 1).val < s.RND.toNat / 2 then .BLK_ROUND else .BLK_FEED } := by
  simp only [State.tickRound, q, if_true]
  rfl

/-- No round count has 128 double-rounds, so DRI does not wrap while some are left. -/
theorem val_DRI_add_one {s : State} (left : s.DRI.val < s.RND.toNat / 2) : (s.DRI + 1).val = s.DRI.val + 1 := by
  have := s.RND.isLt
  rw [Fin.val_add_one_of_lt' (by omega)]

/-- BLK_ROUND keeps X at what its two indices say (70_reset_and_hazards.md R256). -/
theorem tickRound_onItsWay {s : State} (process : s.inProcess) (nothing : s.staged = Staged.nothing)
    (left : s.DRI.val < s.RND.toNat / 2) (partially : s.X = s.partialRounds) : s.tickRound.onItsWay := by
  have next : qrApply s.X (roundLanes s.QRI) =
      applyLanes ((columnLanes ++ diagonalLanes).toList.take (s.QRI.val + 1)) (doubleRounds s.DRI.val s.S) := by
    rw [partially, State.partialRounds, applyLanes_take_succ]
  by_cases q : s.QRI = 7
  case neg =>
    have qri : (s.QRI + 1).val = s.QRI.val + 1 := by omega
    rw [tickRound_within q left]
    exact ⟨process, nothing, left, by rw [next, State.partialRounds, qri]⟩
  case pos =>
    have double : qrApply s.X (roundLanes s.QRI) = doubleRounds (s.DRI.val + 1) s.S := by
      rw [next, q, doubleRounds_succ]
      exact applyLanes_all _
    rw [tickRound_end q, val_DRI_add_one left]
    split_ifs with more
    · refine ⟨process, nothing, ?_, ?_⟩
      · exact (val_DRI_add_one left).symm ▸ more
      · rw [double, State.partialRounds, val_DRI_add_one left]
        rfl
    · have last : s.RND.toNat / 2 = s.DRI.val + 1 := by omega
      exact ⟨process, nothing, by rw [double, permute, last]⟩

/-- The counter states stage the words of `inc64`: on a wrap both, else the low one, which commits the same
(43_counter.md R191). -/
theorem tick_CINC_LO_onItsWay {s : State} (atLo : s.FSM = .CINC_LO) (process : s.inProcess)
    (block : s.staged = s.stagedBlock) : s.tick.onItsWay := by
  rw [tick_CINC_LO_eq atLo, block]
  by_cases wraps : s.S[12] = 0xFFFFFFFF
  case pos =>
    rw [if_pos wraps, inc64_snd_of_wrap _ wraps]
    exact ⟨process, wraps, rfl⟩
  case neg =>
    have ⟨decoded, engine, _⟩ := process
    have keeps : (inc64 s.S[13] s.S[12]).1 = s.S[13] := by rw [inc64_fst, if_neg wraps]
    have commits : s.commit s.processResults =
        s.commit { s.stagedBlock with ctrLo := some (inc64 s.S[13] s.S[12]).2 } := by
      rw [processResults_eq, keeps]
      exact commit_same_ctrHi s s.stagedBlock rfl _
    rw [if_neg wraps]
    exact onItsWay_finish (i := .process 64) decoded (processCheck_ok s engine) commits

theorem tick_CINC_HI_onItsWay {s : State} (atHi : s.FSM = .CINC_HI) (process : s.inProcess)
    (wraps : s.S[12] = 0xFFFFFFFF) (block : s.staged = { s.stagedBlock with ctrLo := some 0 }) : s.tick.onItsWay := by
  have ⟨decoded, engine, _⟩ := process
  have results : s.processResults = { s.stagedBlock with ctrLo := some 0, ctrHi := some (add32 s.S[13] 1) } := by
    rw [processResults_eq, inc64_fst, if_pos wraps, inc64_snd_of_wrap _ wraps]
  rw [tick_CINC_HI atHi, block]
  exact onItsWay_finish (i := .process 64) decoded (processCheck_ok s engine) (congrArg s.commit results)

/-- Every state of the reference sequence leaves the command on its way (70_reset_and_hazards.md R256). -/
theorem tick_onItsWay {s : State} (way : s.onItsWay) (rounds : s.INITD = true → legalRounds s.RND) :
    s.tick.onItsWay := by
  cases f : s.FSM
  all_goals simp only [State.onItsWay, f] at way
  case IDLE => rw [tick_of_idle s f]; simp only [State.onItsWay, f]
  case DECODE => rw [tick_DECODE f]; exact tickDecode_onItsWay rounds
  case INIT_LOAD =>
    obtain ⟨decoded, passes⟩ := way
    rw [tick_INIT_LOAD f]
    exact onItsWay_finish (i := .init) decoded passes rfl
  case BLK_COPY =>
    obtain ⟨process, nothing⟩ := way
    have ⟨_, _, atLeast2, _⟩ := process
    rw [tick_BLK_COPY f]
    exact ⟨process, nothing, Nat.div_pos atLeast2 (by decide), rfl⟩
  case BLK_ROUND =>
    obtain ⟨process, nothing, left, partially⟩ := way
    rw [tick_BLK_ROUND f]
    exact tickRound_onItsWay process nothing left partially
  case BLK_FEED =>
    obtain ⟨process, nothing, permuted⟩ := way
    rw [tick_BLK_FEED f, permuted]
    exact ⟨process, nothing, rfl⟩
  case BLK_COMBINE =>
    obtain ⟨process, nothing, keystream⟩ := way
    rw [tick_BLK_COMBINE f, nothing, keystream]
    exact ⟨process, rfl⟩
  case CINC_LO =>
    obtain ⟨process, block⟩ := way
    exact tick_CINC_LO_onItsWay f process block
  case CINC_HI =>
    obtain ⟨process, wraps, block⟩ := way
    exact tick_CINC_HI_onItsWay f process wraps block
  case SETC =>
    obtain ⟨decoded, engine, nothing⟩ := way
    rw [tick_SETC f, nothing]
    exact onItsWay_finish (i := .setctr) decoded ((setctrCheck_NONE_iff s).mpr engine) rfl
  case FINISH => rw [tick_FINISH f]; trivial

end Sys2Proof.Machine
end

section
/-! What a turn can do: the host's moves, and the ways the core's moves end (00_scope.md R18, 70_reset_and_hazards.md R250
to R259). -/

namespace Sys2Proof.Machine

/-! ### The host's moves -/

/-- The transaction that a turn of the host issues: the one it is placed with, at an offset or at an address, or that of the
statement at the host's line. -/
inductive State.Issues (s : State) : Turn → Transaction → Prop
  | bus (tx : Transaction) : s.Issues (.bus tx) tx
  | cycleRead (a : Access) : s.Issues (.cycle (.read (atAddress a))) (.read a)
  | cycleWrite (a : Access) (v : Word) : s.Issues (.cycle (.write (atAddress a) v)) (.write a v)
  | wr {line : HostLine} (r : Reg) (v : Word) (next : s.host.program[s.host.line]? = some line)
      (stmt : line.stmt = .wr r v) : s.Issues .program (.write (wordAccess r) v)
  | rd {line : HostLine} (r : Reg) (n : Nat) (next : s.host.program[s.host.line]? = some line)
      (stmt : line.stmt = .rd r n) : s.Issues .program (.read (wordAccess r))

/-- A turn of the HOST agent (00_scope.md R18). -/
def Turn.ofHost (turn : Turn) : Prop := turn = .program ∨ (∃ tx, turn = .bus tx) ∨ ∃ c, turn = .cycle c

/-- Only a turn of the host writes, and it is one of three kinds. -/
theorem write_of_issues {s : State} {turn : Turn} {a : Access} {v : Word} (h : s.Issues turn (.write a v)) :
    turn = .program ∨ (∃ a v, turn = .bus (.write a v)) ∨ ∃ b v, turn = .cycle (.write b v) := by
  cases h with
  | bus => exact .inr (.inl ⟨a, v, rfl⟩)
  | cycleWrite => exact .inr (.inr ⟨_, v, rfl⟩)
  | wr r v next stmt => exact .inl rfl

/-- A transaction does not reach the host's program and temporaries; what it answers does, through the statement. -/
theorem busTransaction_host (s : State) (tx : Transaction) : (s.busTransaction tx).host = s.host := by
  obtain ⟨r, n, h⟩ | ⟨a, v, r, -, ⟨-, -, -, h⟩ | ⟨-, h⟩ | ⟨-, h⟩ | ⟨g, -, h⟩⟩ := busTransaction_effects s tx
  all_goals rw [h]
  · rfl
  · have ⟨_, _, _, _, ⟨sameHost, _⟩, _⟩ := writeInput_frame s g v
    exact sameHost

/-- The host's turn is the statement of the line its running program is at (30_encoding.md R100). -/
theorem hostTurn_of_line {s : State} {line : HostLine} (runs : s.host.halted = false)
    (next : s.host.program[s.host.line]? = some line) : s.hostTurn = s.hostStatement line.stmt := by
  have inside : s.host.line < s.host.program.length := (List.getElem?_eq_some_iff.mp next).1
  have running : s.host.running = true := by simp [HostAgent.running, runs, inside]
  rw [State.hostTurn, if_pos running, next]

/-- The turn of a program that has ended or halted changes nothing (log 16). -/
theorem hostTurn_of_ended {s : State} (ended : s.host.halted = true ∨ s.host.program.length ≤ s.host.line) :
    s.hostTurn = s := by
  have stopped : s.host.running = false := by
    simpa [HostAgent.running, ← Bool.not_eq_true, imp_iff_or_not, or_comm] using ended
  simp [State.hostTurn, stopped]

/-- A statement issues one transaction or none. -/
theorem hostStatement_cases {s : State} {line : HostLine} (next : s.host.program[s.host.line]? = some line) :
    ∃ h : HostAgent, s.hostStatement line.stmt = { s with host := h } ∨
      ∃ tx, s.Issues .program tx ∧ s.hostStatement line.stmt = { s.busTransaction tx with host := h } := by
  cases stmt : line.stmt with
  | wr r v => exact ⟨s.host.advance, .inr ⟨_, .wr r v next stmt, rfl⟩⟩
  | rd r n =>
    exact ⟨{ s.host.advance with temps := tempSet s.host.temps n (s.memRead (wordAccess r)).2.1 },
      .inr ⟨_, .rd r n next stmt, rfl⟩⟩
  | beq n mask value label =>
    exact ⟨s.host.branch (tempGet s.host.temps n &&& mask == value) label, .inl rfl⟩
  | bne n mask value label =>
    exact ⟨s.host.branch (tempGet s.host.temps n &&& mask != value) label, .inl rfl⟩
  | halt => exact ⟨{ s.host with halted := true }, .inl rfl⟩

/-- A statement keeps the temporaries canonical: only `rd` sets one. -/
theorem hostStatement_temps {s : State} (stmt : HostStmt) (canonical : tempsCanonical s.host.temps) :
    tempsCanonical (s.hostStatement stmt).host.temps := by
  have branch (taken : Bool) (label : Nat) : tempsCanonical (s.host.branch taken label).temps := by
    cases taken <;> exact canonical
  cases stmt with
  | wr r v => exact canonical
  | rd r n => exact tempSet_canonical canonical n _
  | beq n mask value label => exact branch _ label
  | bne n mask value label => exact branch _ label
  | halt => exact canonical

/-- What a move of the host can do to the state. -/
inductive State.HostEffect (s : State) (turn : Turn) : State → Prop
  /-- To the core nothing but its BWERR. -/
  | around (bw : Bool) (h : HostAgent) (r : List Reply) (n : Nat) : s.HostEffect turn (s.withAround bw h r s.turns n)
  /-- A command is accepted (70_reset_and_hazards.md R251). -/
  | accepts {a : Access} {v : Word} (idle : s.FSM = .IDLE) (issued : s.Issues turn (.write a v)) (h : HostAgent)
      (r : List Reply) : s.HostEffect turn ((s.accept v).withAround s.BWERR h r s.turns s.draws)
  /-- An input is stored (20_memory.md R67). -/
  | stores {a : Access} {v : Word} (idle : s.FSM = .IDLE) (issued : s.Issues turn (.write a v)) (reg : Reg)
      (h : HostAgent) (r : List Reply) :
      s.HostEffect turn ((s.writeInput reg v).withAround s.BWERR h r s.turns s.draws)

/-- The effect of a transaction, with the host agent in any state after it. -/
theorem hostEffect_of_issues {s : State} {turn : Turn} {tx : Transaction} (issued : s.Issues turn tx) (h : HostAgent) :
    s.HostEffect turn { s.busTransaction tx with host := h } := by
  obtain ⟨r, n, e⟩ | ⟨a, v, r, rfl, ⟨-, -, -, e⟩ | ⟨-, e⟩ | ⟨idle, e⟩ | ⟨g, idle, e⟩⟩ := busTransaction_effects s tx
  all_goals rw [e]
  · exact .around s.BWERR h r n
  · exact .around false h r s.draws
  · exact .around true h r s.draws
  · exact .accepts idle issued h r
  · have ⟨_, _, ⟨_, sameBWERR, _⟩, _, ⟨_, _, sameTurns⟩, sameDraws⟩ := writeInput_frame s g v
    have store := State.HostEffect.stores idle issued g h r
    rw [← sameBWERR, ← sameTurns, ← sameDraws] at store
    exact store

/-- A transaction at an address is, in every state, the same one at an offset, or one the core does not see. -/
theorem busCycle_eq (c : BusCycle) :
    (∀ s : State, s.busCycle c = s) ∨ ∃ tx, ∀ s : State, s.Issues (.cycle c) tx ∧ s.busCycle c = s.busTransaction tx := by
  cases c with
  | read b =>
    cases seen : atOffset b with
    | none => exact .inl fun s => by rw [State.busCycle, seen]
    | some a =>
      obtain rfl := (atOffset_eq_some_iff b a).mp seen
      exact .inr ⟨.read a, fun s => ⟨.cycleRead a, by rw [State.busCycle, seen]⟩⟩
  | write b v =>
    cases seen : atOffset b with
    | none => exact .inl fun s => by rw [State.busCycle, seen]
    | some a =>
      obtain rfl := (atOffset_eq_some_iff b a).mp seen
      exact .inr ⟨.write a v, fun s => ⟨.cycleWrite a v, by rw [State.busCycle, seen]⟩⟩

/-- A move of the host is at most one transaction, and a new state of the host agent. -/
theorem takeTurn_host_cases {s t : State} {turn : Turn} (host : turn.ofHost) (move : takeTurn turn s = .next t) :
    ∃ h : HostAgent, t = { s with host := h } ∨
      ∃ tx, s.Issues turn tx ∧ t = { s.busTransaction tx with host := h } := by
  obtain rfl | ⟨tx, rfl⟩ | ⟨c, rfl⟩ := host
  all_goals obtain rfl := Host.Outcome.next.inj move
  · by_cases runs : s.host.halted = false ∧ s.host.line < s.host.program.length
    case neg =>
      have ended : s.host.halted = true ∨ s.host.program.length ≤ s.host.line := by
        simpa [← Bool.not_eq_true, imp_iff_or_not, or_comm] using runs
      exact ⟨s.host, .inl (hostTurn_of_ended ended)⟩
    case pos =>
      obtain ⟨running, inside⟩ := runs
      have next := List.getElem?_eq_getElem inside
      rw [hostTurn_of_line running next]
      exact hostStatement_cases next
  · exact ⟨(s.busTransaction tx).host, .inr ⟨tx, .bus tx, rfl⟩⟩
  · obtain unseen | ⟨tx, seen⟩ := busCycle_eq c
    · exact ⟨s.host, .inl (unseen s)⟩
    · obtain ⟨issued, e⟩ := seen s
      exact ⟨(s.busTransaction tx).host, .inr ⟨tx, issued, e⟩⟩

theorem hostEffect_of_takeTurn {s t : State} {turn : Turn} (host : turn.ofHost) (move : takeTurn turn s = .next t) :
    s.HostEffect turn t := by
  obtain ⟨h, rfl | ⟨tx, issued, rfl⟩⟩ := takeTurn_host_cases host move
  · exact .around s.BWERR h s.replies s.draws
  · exact hostEffect_of_issues issued h

/-- Whose move a turn is. -/
theorem takeTurn_cases {s t : State} {turn : Turn} (move : takeTurn turn s = .next t) :
    (turn = .reset ∧ t = s.applyReset) ∨ (∃ m, turn = .core m ∧ coreTurn m s = .next t) ∨ turn.ofHost := by
  cases turn with
  | reset => exact .inl ⟨rfl, (Host.Outcome.next.inj move).symm⟩
  | core m => exact .inr (.inl ⟨m, rfl, move⟩)
  | bus tx => exact .inr (.inr (.inr (.inl ⟨tx, rfl⟩)))
  | program => exact .inr (.inr (.inl rfl))
  | cycle c => exact .inr (.inr (.inr (.inr ⟨c, rfl⟩)))

/-- A move of the host keeps the temporaries canonical. -/
theorem takeTurn_temps {s t : State} {turn : Turn} (host : turn.ofHost) (move : takeTurn turn s = .next t)
    (canonical : tempsCanonical s.host.temps) : tempsCanonical t.host.temps := by
  obtain rfl | ⟨tx, rfl⟩ | ⟨c, rfl⟩ := host
  all_goals obtain rfl := Host.Outcome.next.inj move
  · obtain e | ⟨stmt, e⟩ := hostTurn_cases s
    all_goals rw [e]
    · exact canonical
    · exact hostStatement_temps stmt canonical
  · rwa [busTransaction_host]
  · obtain unseen | ⟨tx, seen⟩ := busCycle_eq c
    · rwa [unseen]
    · rwa [(seen s).2, busTransaction_host]

/-! ### The core's moves -/

/-- Only FINISH returns the core to IDLE (70_reset_and_hazards.md R257). -/
theorem FINISH_of_tick_IDLE {s : State} (busy : s.FSM ≠ .IDLE) (idle : s.tick.FSM = .IDLE) : s.FSM = .FINISH := by
  cases f : s.FSM
  case FINISH => rfl
  case IDLE => exact absurd f busy
  case DECODE =>
    rw [tick_DECODE f] at idle
    obtain ⟨e, -, next⟩ | ⟨i, -, -, next⟩ | ⟨i, -, -, next⟩ := tickDecode_cases s
    all_goals rw [next] at idle
    · cases idle
    · cases idle
    · cases i <;> cases idle
  case INIT_LOAD => rw [tick_INIT_LOAD f] at idle; cases idle
  case BLK_COPY => rw [tick_BLK_COPY f] at idle; cases idle
  case BLK_ROUND =>
    rw [tick_BLK_ROUND f] at idle
    simp only [State.tickRound] at idle
    split_ifs at idle
  case BLK_FEED => rw [tick_BLK_FEED f] at idle; cases idle
  case BLK_COMBINE => rw [tick_BLK_COMBINE f] at idle; cases idle
  case CINC_LO =>
    rw [tick_CINC_LO_eq f] at idle
    split_ifs at idle
  case CINC_HI => rw [tick_CINC_HI f] at idle; cases idle
  case SETC => rw [tick_SETC f] at idle; cases idle

/-- States of the FSM in a row change only what the core holds internally, or end in a commit. -/
theorem ticks_cases (s : State) (n : Nat) :
    (∃ f d q x k st, s.ticks n = { s with FSM := f, DRI := d, QRI := q, X := x, KW := k, staged := st }) ∨
      ∃ st, s.ticks n = s.commit st := by
  induction n generalizing s with
  | zero => exact .inl ⟨_, _, _, _, _, _, rfl⟩
  | succ n ih =>
    rw [ticks_succ]
    by_cases stays : s.tick.FSM = .IDLE
    case pos =>
      rw [ticks_of_idle _ stays]
      by_cases busy : s.FSM = .IDLE
      · rw [tick_of_idle s busy]
        exact .inl ⟨_, _, _, _, _, _, rfl⟩
      · rw [tick_FINISH (FINISH_of_tick_IDLE busy stays)]
        exact .inr ⟨_, rfl⟩
    case neg =>
      obtain ⟨f, d, q, x, k, st, e⟩ := tick_stays stays
      obtain ⟨f', d', q', x', k', st', e'⟩ | ⟨st', e'⟩ := ih s.tick
      all_goals rw [e', e]
      · exact .inl ⟨_, _, _, _, _, _, rfl⟩
      · exact .inr ⟨st', rfl⟩

/-- An idle core's move changes nothing (log 16). -/
theorem coreTurn_of_IDLE {s : State} (idle : s.FSM = .IDLE) (m : CoreMove) : coreTurn m s = .next s := by
  cases m with
  | tick => rw [coreTurn, tick_of_idle s idle]
  | run => rw [coreTurn, if_neg (by simp [idle]), ticks_of_idle s idle]
  | stall => rfl

/-- Within a command the core's merged move is the rest of its states (70_reset_and_hazards.md R256). -/
theorem coreTurn_run_of_ne_DECODE {s : State} (h : s.FSM ≠ .DECODE) :
    coreTurn .run s = .next (s.ticks longestCommand) :=
  if_neg h

/-- A move of the core changes only what it holds internally, or completes the command under way with a commit. -/
theorem coreTurn_cases {s t : State} {m : CoreMove} (move : coreTurn m s = .next t) :
    (∃ f d q x k st, t = { s with FSM := f, DRI := d, QRI := q, X := x, KW := k, staged := st }) ∨
      s.busy = true ∧ ∃ st, t = s.commit st := by
  by_cases idle : s.FSM = .IDLE
  case pos =>
    obtain rfl := Host.Outcome.next.inj ((coreTurn_of_IDLE idle m).symm.trans move)
    exact .inl ⟨_, _, _, _, _, _, rfl⟩
  case neg =>
    have busy := (busy_eq_true_iff s).mpr idle
    cases m with
    | tick =>
      obtain rfl := Host.Outcome.next.inj move
      exact (ticks_cases s 1).imp_right (.intro busy)
    | run =>
      by_cases decoding : s.FSM = .DECODE
      · rw [coreTurn_run_of_DECODE decoding, runCommand_eq_commit] at move
        exact .inr ⟨busy, _, (Host.Outcome.next.inj move).symm⟩
      · rw [coreTurn_run_of_ne_DECODE decoding] at move
        obtain rfl := Host.Outcome.next.inj move
        exact (ticks_cases s longestCommand).imp_right (.intro busy)
    | stall =>
      obtain rfl := Host.Outcome.next.inj move
      exact .inl ⟨_, _, _, _, _, _, rfl⟩

end Sys2Proof.Machine
end

section
/-! O47, O48: the invariant holds after reset and every step keeps it. -/

namespace Sys2Proof.Machine

/-! ### The host's moves -/

section

variable {s : State} (inv : s.Inv)

include inv

/-- The invariant asks nothing of what is around the core but canonical temporaries. -/
theorem inv_withAround {h : HostAgent} (canonical : tempsCanonical h.temps) (bw : Bool) (r : List Reply) (ts : List Turn)
    (n : Nat) : (s.withAround bw h r ts n).Inv where
  configReserved := inv.configReserved
  engineRounds := inv.engineRounds
  engineWords := inv.engineWords
  noEngine := inv.noEngine
  busyFlags := inv.busyFlags
  validOutput := inv.validOutput
  progress := onItsWay_withAround s bw h r ts n inv.progress
  temporaries := canonical

/-- Acceptance clears DVALID and ERR, and DECODE asks nothing of the word (70_reset_and_hazards.md R251). -/
theorem inv_accept (v : Word) : (s.accept v).Inv where
  configReserved := inv.configReserved
  engineRounds := inv.engineRounds
  engineWords := inv.engineWords
  noEngine := inv.noEngine
  busyFlags _ := ⟨accept_DVALID s v, accept_ERR s v⟩
  validOutput valid := nomatch valid
  progress := trivial
  temporaries := inv.temporaries

/-- What is stored to CONFIG is masked (10_state.md R22). -/
theorem writeInput_configReserved (reg : Reg) (v : Word) : (s.writeInput reg v).CONFIG.extractLsb' 24 8 = 0 := by
  cases reg
  case CONFIG => exact configMask_high v
  all_goals exact inv.configReserved

/-- An idle core's inputs can be stored (20_memory.md R67). -/
theorem inv_writeInput (idle : s.FSM = .IDLE) (reg : Reg) (v : Word) : (s.writeInput reg v).Inv := by
  obtain ⟨⟨sameS, sameRND, sameINITD, sameK256⟩, sameDOUT, ⟨sameDVALID, -, sameERR⟩, ⟨sameFSM, -⟩, ⟨sameHost, -⟩, -⟩ :=
    writeInput_frame s reg v
  have idle' : (s.writeInput reg v).FSM = .IDLE := sameFSM.trans idle
  refine ⟨writeInput_configReserved inv reg v, ?_, ?_, ?_, ?_, ?_, ?_, ?_⟩
  · rw [sameINITD, sameRND]; exact inv.engineRounds
  · rw [sameINITD, sameS, sameK256]; exact inv.engineWords
  · rw [sameINITD, sameS, sameRND, sameK256, sameDOUT]; exact inv.noEngine
  · exact fun busy => absurd idle' ((busy_eq_true_iff _).mp busy)
  · rw [sameDVALID, sameINITD, sameERR]; exact inv.validOutput
  · simp only [State.onItsWay, idle']
  · rw [sameHost]; exact inv.temporaries

theorem inv_hostEffect {t : State} {turn : Turn} (effect : s.HostEffect turn t) (canonical : tempsCanonical t.host.temps) :
    t.Inv := by
  cases effect with
  | around bw h r n => exact inv_withAround inv canonical bw r s.turns n
  | accepts idle issued h r => exact inv_withAround (inv_accept inv _) canonical s.BWERR r s.turns s.draws
  | stores idle issued reg h r =>
    exact inv_withAround (inv_writeInput inv idle reg _) canonical s.BWERR r s.turns s.draws

end

/-! ### The end of a command -/

/-- The first slots hold the constants, and a 16-byte key is there twice (41_init.md R154, R157, R158). -/
theorem engineLayout_slots (s : State) : engineLayout (Config.layout.map s.slotValue) (s.klen = 32) := by
  have slot (i : Fin 4) : Config.layout[i.val] = .const i := by revert i; decide
  constructor
  · intro i
    rw [Vector.getElem_map, slot, State.slotValue]
  · intro key16 i
    rw [slots_of_key16 (of_decide_eq_false key16)]
    fin_cases i <;> rfl

/-- The counter words are no constants and no key words (41_init.md R157). -/
theorem engineLayout_set_counter {S : Block} {key256 : Bool} (layout : engineLayout S key256) (lo hi : Word) :
    engineLayout ((S.set 12 lo).set 13 hi) key256 := by
  obtain ⟨constants, twice⟩ := layout
  have keeps (j : Nat) (low : j < 12) : ((S.set 12 lo).set 13 hi)[j] = S[j] := by
    rw [Vector.getElem_set_ne _ _ (by omega), Vector.getElem_set_ne _ _ (by omega)]
  refine ⟨fun i => ?_, fun key16 i => ?_⟩
  · rw [keeps _ (by omega), constants]
  · rw [keeps _ (by omega), keeps _ (by omega), twice key16]

/-- ROUNDS of a valid INIT is a round count an engine may have (41_init.md R153). -/
theorem legalRounds_of_initCheck {s : State} (legal : s.initCheck = .NONE) : legalRounds (s.rounds.setWidth 8) := by
  obtain ⟨-, -, atLeast2, even⟩ := (initCheck_NONE_iff s).mp legal
  rw [legalRounds, latchedRounds_toNat]
  exact ⟨atLeast2, (getLsbD_zero_eq_false_iff _).mp even⟩

section

variable {s : State} (inv : s.Inv)

include inv

theorem inv_fail (invalid : s.DVALID = false) (e : ErrCode) : (s.fail e).Inv where
  configReserved := inv.configReserved
  engineRounds := by simpa using inv.engineRounds
  engineWords := by simpa using inv.engineWords
  noEngine := by simpa using inv.noEngine
  busyFlags busy := by simp at busy
  validOutput valid := by simp [invalid] at valid
  progress := trivial
  temporaries := inv.temporaries

theorem inv_commit_init (invalid : s.DVALID = false) (legal : s.initCheck = .NONE) : (s.commit s.initResults).Inv where
  configReserved := inv.configReserved
  engineRounds _ := legalRounds_of_initCheck legal
  engineWords _ := engineLayout_slots s
  noEngine noEngine := by simp [State.initResults] at noEngine
  busyFlags busy := by simp at busy
  validOutput valid := by simp [State.initResults, Staged.nothing, invalid] at valid
  progress := trivial
  temporaries := inv.temporaries

/-- PROCESS and SETCTR commit counter words and no engine. -/
theorem inv_commit_counter {st : Staged} (engine : s.INITD = true) (noError : st.code = .NONE) (sameEngine : st.engine = none)
    (counter : ∃ lo hi, st.commitS s.S = (s.S.set 12 lo).set 13 hi) : (s.commit st).Inv := by
  obtain ⟨lo, hi, words⟩ := counter
  have latched : (s.commit st).INITD = true := by rw [commit_INITD, engine, Bool.true_or]
  refine ⟨inv.configReserved, fun _ => ?_, fun _ => ?_, fun none => ?_, fun busy => ?_, fun _ => ⟨latched, noError⟩, trivial,
    inv.temporaries⟩
  · simpa [sameEngine] using inv.engineRounds engine
  · rw [commit_S, words, commit_K256, sameEngine]
    exact engineLayout_set_counter (inv.engineWords engine) lo hi
  · exact nomatch latched.symm.trans none
  · simp at busy

/-- The whole command keeps the invariant, from any state in which one is under way. -/
theorem inv_runCommand {t : State} (busy : s.busy = true) (run : runCommand s = .next t) : t.Inv := by
  obtain ⟨invalid, -⟩ := inv.busyFlags busy
  obtain ⟨e, -, rfl⟩ | ⟨-, legal, rfl⟩ | ⟨-, engine, rfl⟩ | ⟨-, engine, rfl⟩ := runCommand_cases run
  · exact inv_fail inv invalid e
  · exact inv_commit_init inv invalid legal
  · exact inv_commit_counter inv engine rfl rfl ⟨_, _, commit_processResults_S s⟩
  · exact inv_commit_counter inv engine rfl rfl ⟨_, _, commit_setctrResults_S s⟩

/-! ### The core's and the machine's moves -/

/-- A state of the FSM that does not complete the command writes nothing the invariant speaks of but the command's way. -/
theorem inv_tick_stays (stays : s.tick.FSM ≠ .IDLE) : s.tick.Inv := by
  have way : s.tick.onItsWay := tick_onItsWay inv.progress inv.engineRounds
  have busy : s.busy = true := (busy_eq_true_iff s).mpr fun idle => stays (by rw [tick_of_idle s idle, idle])
  obtain ⟨f, d, q, x, k, st, next⟩ := tick_stays stays
  rw [next] at way ⊢
  exact ⟨inv.configReserved, inv.engineRounds, inv.engineWords, inv.noEngine, fun _ => inv.busyFlags busy, inv.validOutput,
    way, inv.temporaries⟩

/-- In FINISH the FSM completes the whole command (70_reset_and_hazards.md R257). -/
theorem runCommand_of_FINISH (finish : s.FSM = .FINISH) : runCommand s = .next s.tick := by
  have way := inv.progress
  rw [tick_FINISH finish]
  simpa only [State.onItsWay, finish] using way

theorem inv_tick : s.tick.Inv := by
  by_cases idle : s.FSM = .IDLE
  · rwa [tick_of_idle s idle]
  by_cases stays : s.tick.FSM = .IDLE
  · exact inv_runCommand inv ((busy_eq_true_iff s).mpr idle) (runCommand_of_FINISH inv (FINISH_of_tick_IDLE idle stays))
  · exact inv_tick_stays inv stays

theorem inv_ticks (n : Nat) : (s.ticks n).Inv := by
  induction n generalizing s with
  | zero => exact inv
  | succ n ih => exact ih (inv_tick inv)

theorem inv_coreTurn {t : State} {m : CoreMove} (move : coreTurn m s = .next t) : t.Inv := by
  cases m with
  | tick => exact Host.Outcome.next.inj move ▸ inv_tick inv
  | stall => exact Host.Outcome.next.inj move ▸ inv
  | run =>
    by_cases decoding : s.FSM = .DECODE
    · rw [coreTurn_run_of_DECODE decoding] at move
      exact inv_runCommand inv (by simp [decoding]) move
    · rw [coreTurn_run_of_ne_DECODE decoding] at move
      exact Host.Outcome.next.inj move ▸ inv_ticks inv longestCommand

end

/-- Settles O47: after reset the core is idle, without an engine, and the host has no temporary. -/
theorem resetMeetsTheInvariant : Obligations.ResetMeetsTheInvariant where
  configReserved := by decide
  engineRounds engine := nomatch engine
  engineWords engine := nomatch engine
  noEngine _ := ⟨rfl, rfl, rfl, rfl⟩
  busyFlags busy := nomatch busy
  validOutput valid := nomatch valid
  progress := trivial
  temporaries := ⟨List.Pairwise.nil, fun _ h => nomatch h⟩

theorem inv_takeTurn {s t : State} {turn : Turn} (inv : s.Inv) (move : takeTurn turn s = .next t) : t.Inv := by
  obtain ⟨-, rfl⟩ | ⟨m, -, coreMove⟩ | host := takeTurn_cases move
  · exact inv_withAround resetMeetsTheInvariant inv.temporaries false s.replies s.turns s.draws
  · exact inv_coreTurn inv coreMove
  · exact inv_hostEffect inv (hostEffect_of_takeTurn host move) (takeTurn_temps host move inv.temporaries)

/-- Settles O48: a step is a turn, placed or by default, and every agent's turn keeps the invariant. -/
theorem everyStepKeepsTheInvariant : Obligations.EveryStepKeepsTheInvariant := by
  intro s t inv move
  obtain ⟨turn, rest, -, e⟩ | ⟨-, -, e⟩ | ⟨-, -, -, e⟩ | ⟨-, -, -, e⟩ := step_cases s
  all_goals rw [e] at move
  · exact inv_takeTurn (inv_withAround inv inv.temporaries s.BWERR s.replies rest s.draws) move
  · exact inv_coreTurn inv move
  · exact inv_takeTurn (turn := .program) inv move
  · exact Host.Outcome.next.inj move ▸ inv

end Sys2Proof.Machine
end

section
/-! O40, O41, O42: how many states of the FSM a command has left, and that they end in the whole command
(70_reset_and_hazards.md R256 to R258). -/

namespace Sys2Proof.Machine

/-! ### How many states are left -/

/-- From BLK_FEED on: BLK_FEED, BLK_COMBINE, CINC_LO, CINC_HI on a wrap of the low counter word, FINISH. -/
def State.blockEndStates (s : State) : Nat := 4 + if s.S[12] = 0xFFFFFFFF then 1 else 0

/-- The visits to BLK_ROUND left from the two indices. Where an engine has too few rounds, one is made all the same; from the
last index of all, DRI starts again (log 19). -/
def State.roundStates (s : State) (dri : Fin 128) (qri : Fin 8) : Nat :=
  if dri.val < s.RND.toNat / 2 then 8 * (s.RND.toNat / 2 - dri.val) - qri.val
  else if dri = 127 ∧ qri = 7 then 1 + 8 * (s.RND.toNat / 2)
  else 1

/-- The states after DECODE of a command whose check passes. -/
def State.statesAfterDecode (s : State) : Instr → Nat
  | .init => 2
  | .process _ => 1 + s.roundStates 0 0 + s.blockEndStates
  | .setctr => 2

/-- The states of the reference sequence that are left, up to the return to IDLE (70_reset_and_hazards.md R256). -/
def State.statesLeft (s : State) : Nat :=
  match s.FSM with
  | .IDLE => 0
  | .DECODE =>
    match decode s.CMDL with
    | .error _ => 2
    | .ok i => if s.check i = .NONE then 1 + s.statesAfterDecode i else 2
  | .INIT_LOAD => 2
  | .BLK_COPY => 1 + s.roundStates 0 0 + s.blockEndStates
  | .BLK_ROUND => s.roundStates s.DRI s.QRI + s.blockEndStates
  | .BLK_FEED => s.blockEndStates
  | .BLK_COMBINE => s.blockEndStates - 1
  | .CINC_LO => s.blockEndStates - 2
  | .CINC_HI => 2
  | .SETC => 2
  | .FINISH => 1

theorem blockEndStates_bounds (s : State) : 4 ≤ s.blockEndStates ∧ s.blockEndStates ≤ 5 := by
  unfold State.blockEndStates
  split_ifs <;> omega

/-- A round count fits a byte, so there are at most 127 double-rounds. -/
theorem roundStates_bounds (s : State) (dri : Fin 128) (qri : Fin 8) :
    1 ≤ s.roundStates dri qri ∧ s.roundStates dri qri ≤ 1017 := by
  have := s.RND.isLt
  unfold State.roundStates
  split_ifs <;> omega

theorem statesLeft_of_IDLE {s : State} (idle : s.FSM = .IDLE) : s.statesLeft = 0 := by
  simp only [State.statesLeft, idle]

/-- No command has more states than the longest (70_reset_and_hazards.md R269). -/
theorem statesLeft_le (s : State) : s.statesLeft ≤ longestCommand := by
  have blockEnd := blockEndStates_bounds s
  have allRounds := roundStates_bounds s 0 0
  have rounds := roundStates_bounds s s.DRI s.QRI
  have after (i : Instr) : s.statesAfterDecode i ≤ 1023 := by
    cases i <;> simp only [State.statesAfterDecode] <;> omega
  cases f : s.FSM
  all_goals simp only [State.statesLeft, f, longestCommand]
  case DECODE =>
    cases decode s.CMDL with
    | error e => simp
    | ok i =>
      have := after i
      simp only
      split_ifs <;> omega
  all_goals omega

/-- With a legal round count BLK_ROUND is visited eight times a double-round (70_reset_and_hazards.md R269). -/
theorem roundStates_zero {s : State} (rounds : legalRounds s.RND) : s.roundStates 0 0 = 8 * (s.RND.toNat / 2) := by
  obtain ⟨atLeast2, -⟩ := rounds
  exact if_pos (Nat.div_pos atLeast2 (by decide))

/-- A visit to BLK_ROUND leaves one less of them; the next state is chosen by the advanced DRI (log 19). -/
theorem roundStates_next (s : State) (dri dri' : Fin 128) (qri : Fin 8) (next : dri' = if qri = 7 then dri + 1 else dri) :
    s.roundStates dri qri = 1 + if dri'.val < s.RND.toNat / 2 then s.roundStates dri' (qri + 1) else 0 := by
  have byte := s.RND.isLt
  have advanced : dri'.val = if qri.val = 7 then (dri.val + 1) % 128 else dri.val := by
    rw [next]
    have last : qri = 7 ↔ qri.val = 7 := Fin.ext_iff
    simp only [last]
    split_ifs
    · exact Fin.val_add dri 1
    · rfl
  have advancedQ : (qri + 1).val = (qri.val + 1) % 8 := Fin.val_add qri 1
  simp only [State.roundStates, advanced, advancedQ, Fin.ext_iff]
  split_ifs <;> omega

/-- A state that does not complete the command keeps what the counts speak of. -/
theorem states_tick {s : State} (stays : s.tick.FSM ≠ .IDLE) :
    s.tick.blockEndStates = s.blockEndStates ∧ s.tick.roundStates = s.roundStates ∧
      s.tick.statesAfterDecode = s.statesAfterDecode := by
  obtain ⟨f, d, q, x, k, st, next⟩ := tick_stays stays
  rw [next]
  exact ⟨rfl, rfl, rfl⟩

theorem statesLeft_firstState (s : State) (i : Instr) (first : s.FSM = firstState i) :
    s.statesLeft = s.statesAfterDecode i := by
  cases i <;> simp only [State.statesLeft, first, firstState, State.statesAfterDecode]

/-- DECODE leaves FINISH, or the states of the command whose check passes. -/
theorem statesLeft_tick_DECODE {s : State} (f : s.FSM = .DECODE) (stays : s.tick.FSM ≠ .IDLE) :
    s.statesLeft = s.tick.statesLeft + 1 := by
  obtain ⟨-, -, sameAfter⟩ := states_tick stays
  obtain ⟨e, decoded, next⟩ | ⟨i, decoded, fails, next⟩ | ⟨i, decoded, passes, next⟩ := tickDecode_cases s
  all_goals have nextFSM := congrArg State.FSM ((tick_DECODE f).trans next)
  · have finish : s.tick.FSM = .FINISH := nextFSM
    simp only [State.statesLeft, f, finish, decoded]
  · have finish : s.tick.FSM = .FINISH := nextFSM
    simp only [State.statesLeft, f, finish, decoded, fails, if_false]
  · rw [statesLeft_firstState s.tick i nextFSM, sameAfter]
    simp only [State.statesLeft, f, decoded, passes, if_true, Nat.add_comm]

/-- BLK_ROUND leaves one visit less, or goes on to BLK_FEED after the last. -/
theorem statesLeft_tick_BLK_ROUND {s : State} (f : s.FSM = .BLK_ROUND) (stays : s.tick.FSM ≠ .IDLE) :
    s.statesLeft = s.tick.statesLeft + 1 := by
  obtain ⟨sameEnd, sameRounds, -⟩ := states_tick stays
  have rounds := roundStates_next s s.DRI s.tick.DRI s.QRI (by rw [tick_BLK_ROUND f]; rfl)
  have nextQRI : s.tick.QRI = s.QRI + 1 := by rw [tick_BLK_ROUND f]; rfl
  have nextFSM : s.tick.FSM = if s.tick.DRI.val < s.RND.toNat / 2 then .BLK_ROUND else .BLK_FEED := by
    rw [tick_BLK_ROUND f]; rfl
  split_ifs at nextFSM rounds
  all_goals
    simp only [State.statesLeft, f, nextFSM, nextQRI, sameEnd, sameRounds]
    omega

/-- Every state of a busy core leaves one less, in whatever state it is. -/
theorem statesLeft_tick {s : State} (busy : s.FSM ≠ .IDLE) : s.statesLeft = s.tick.statesLeft + 1 := by
  by_cases stays : s.tick.FSM = .IDLE
  case pos =>
    rw [statesLeft_of_IDLE stays]
    simp only [State.statesLeft, FINISH_of_tick_IDLE busy stays]
  obtain ⟨sameEnd, sameRounds, -⟩ := states_tick stays
  have blockEnd := blockEndStates_bounds s
  cases f : s.FSM
  case IDLE => exact absurd f busy
  case FINISH => exact absurd (by rw [tick_FINISH f, commit_FSM]) stays
  case DECODE => exact statesLeft_tick_DECODE f stays
  case BLK_ROUND => exact statesLeft_tick_BLK_ROUND f stays
  case CINC_LO =>
    have nextFSM : s.tick.FSM = if s.S[12] = 0xFFFFFFFF then .CINC_HI else .FINISH := by rw [tick_CINC_LO_eq f]
    split_ifs at nextFSM with wraps
    all_goals
      simp only [State.statesLeft, f, nextFSM, State.blockEndStates, wraps, if_true, if_false]
  case INIT_LOAD => rw [tick_INIT_LOAD f]; simp only [State.statesLeft, f]
  case CINC_HI => rw [tick_CINC_HI f]; simp only [State.statesLeft, f]
  case SETC => rw [tick_SETC f]; simp only [State.statesLeft, f]
  case BLK_COPY =>
    have nextFSM : s.tick.FSM = .BLK_ROUND := by rw [tick_BLK_COPY f]
    have nextDRI : s.tick.DRI = 0 := by rw [tick_BLK_COPY f]
    have nextQRI : s.tick.QRI = 0 := by rw [tick_BLK_COPY f]
    simp only [State.statesLeft, f, nextFSM, nextDRI, nextQRI, sameEnd, sameRounds]
    omega
  case BLK_FEED =>
    have nextFSM : s.tick.FSM = .BLK_COMBINE := by rw [tick_BLK_FEED f]
    simp only [State.statesLeft, f, nextFSM, sameEnd]
    omega
  case BLK_COMBINE =>
    have nextFSM : s.tick.FSM = .CINC_LO := by rw [tick_BLK_COMBINE f]
    simp only [State.statesLeft, f, nextFSM, sameEnd]
    omega

/-- As many states are left as were left, less the ones made. -/
theorem statesLeft_ticks (s : State) (n : Nat) : (s.ticks n).statesLeft = s.statesLeft - n := by
  induction n generalizing s with
  | zero => rfl
  | succ n ih =>
    rw [ticks_succ, ih]
    by_cases idle : s.FSM = .IDLE
    · rw [tick_of_idle s idle, statesLeft_of_IDLE idle, Nat.zero_sub, Nat.zero_sub]
    · rw [statesLeft_tick idle, Nat.add_sub_add_right]

/-- The core is busy exactly while states are left. -/
theorem statesLeft_pos_iff (s : State) : 0 < s.statesLeft ↔ s.busy = true := by
  rw [busy_eq_true_iff]
  constructor
  · rintro left idle
    rw [statesLeft_of_IDLE idle] at left
    exact Nat.lt_irrefl 0 left
  · intro busy
    rw [statesLeft_tick busy]
    exact Nat.succ_pos _

theorem ticks_busy_iff (s : State) (n : Nat) : (s.ticks n).busy = true ↔ n < s.statesLeft := by
  rw [← statesLeft_pos_iff, statesLeft_ticks, Nat.sub_pos_iff_lt]

/-! ### They end in the whole command -/

/-- A state within a command leaves the rest of it the whole command. -/
theorem runCommand_tick {s : State} (stays : s.tick.FSM ≠ .IDLE) : runCommand s.tick = runCommand s := by
  obtain ⟨f, d, q, x, k, st, next⟩ := tick_stays stays
  rw [next, runCommand_internal]

/-- A command on its way ends, state by state, in what the whole command gives (70_reset_and_hazards.md R258). -/
theorem runCommand_eq_ticks {s : State} (busy : s.FSM ≠ .IDLE) (way : s.onItsWay)
    (rounds : s.INITD = true → legalRounds s.RND) : runCommand s = .next (s.ticks s.statesLeft) := by
  induction left : s.tick.statesLeft generalizing s with
  | zero =>
    have idle : s.tick.FSM = .IDLE := by
      by_contra stays
      exact absurd ((statesLeft_pos_iff s.tick).mpr ((busy_eq_true_iff _).mpr stays)) (by omega)
    have finish := FINISH_of_tick_IDLE busy idle
    have commits : runCommand s = .next (s.commit s.staged) := by simpa only [State.onItsWay, finish] using way
    rw [statesLeft_tick busy, left, commits, ← tick_FINISH finish]
    rfl
  | succ n ih =>
    have stays : s.tick.FSM ≠ .IDLE := fun idle => by simp [statesLeft_of_IDLE idle] at left
    have rounds' : s.tick.INITD = true → legalRounds s.tick.RND := by
      obtain ⟨f, d, q, x, k, st, next⟩ := tick_stays stays
      rw [next]
      exact rounds
    have rest : s.tick.tick.statesLeft = n := by
      have := statesLeft_tick stays
      omega
    rw [← runCommand_tick stays, ih stays (tick_onItsWay way rounds) rounds' rest, statesLeft_tick busy, ticks_succ]

/-- Once the command has ended, more states change nothing. -/
theorem ticks_longestCommand (s : State) : s.ticks longestCommand = s.ticks s.statesLeft := by
  have idle : (s.ticks s.statesLeft).FSM = .IDLE := by
    by_contra busy
    exact absurd ((ticks_busy_iff s s.statesLeft).mp ((busy_eq_true_iff _).mpr busy)) (Nat.lt_irrefl _)
  rw [← Nat.add_sub_cancel' (statesLeft_le s), ticks_add, ticks_of_idle _ idle]

/-- The core's merged move is the whole command (70_reset_and_hazards.md R258). -/
theorem coreTurn_run_eq_runCommand {s : State} (inv : s.Inv) (busy : s.busy = true) : coreTurn .run s = runCommand s := by
  by_cases decoding : s.FSM = .DECODE
  · exact coreTurn_run_of_DECODE decoding
  · rw [coreTurn_run_of_ne_DECODE decoding, ticks_longestCommand,
      ← runCommand_eq_ticks ((busy_eq_true_iff s).mp busy) inv.progress inv.engineRounds]

/-- With a legal round count the states left at DECODE are those of the timing table (70_reset_and_hazards.md R269). -/
theorem statesLeft_eq_referenceClocks {s : State} {i : Instr} (decoding : s.FSM = .DECODE) (decoded : decode s.CMDL = .ok i)
    (rounds : s.INITD = true → legalRounds s.RND) : s.statesLeft = s.referenceClocks i := by
  have left : s.statesLeft = if s.check i = .NONE then 1 + s.statesAfterDecode i else 2 := by
    simp only [State.statesLeft, decoding, decoded]
  rw [left]
  cases i with
  | init => rfl
  | setctr => rfl
  | process blen =>
    by_cases passes : s.processCheck blen = .NONE
    case neg => simp only [State.check, State.referenceClocks, passes, if_false]
    case pos =>
      obtain ⟨engine, -⟩ := (processCheck_NONE_iff s blen).mp passes
      have visits := roundStates_zero (rounds engine)
      simp only [State.check, State.referenceClocks, State.statesAfterDecode, State.blockEndStates, passes, if_true, visits]
      omega

/-- Settles O40: the states left at DECODE are the ones the table lists, and they end in the whole command. -/
theorem referenceSequenceIsTheCommand : Obligations.ReferenceSequenceIsTheCommand := by
  intro s i decoding decoded rounds
  have way : s.onItsWay := by simp only [State.onItsWay, decoding]
  rw [← statesLeft_eq_referenceClocks decoding decoded rounds, ← runCommand_of_ok decoded]
  exact ⟨runCommand_eq_ticks (by simp [decoding]) way rounds, fun n => (ticks_busy_iff s n).mpr⟩

/-- Settles O41: every busy state has from 1 to 1024 states left, and the merged move is a command or the rest of one. -/
theorem everyCommandFinishes : Obligations.EveryCommandFinishes := by
  intro s busy
  have ends : (s.ticks s.statesLeft).busy = false := by
    rw [← Bool.not_eq_true, ticks_busy_iff]
    exact Nat.lt_irrefl _
  refine ⟨⟨s.statesLeft, (statesLeft_pos_iff s).mpr busy, statesLeft_le s, ends⟩, ?_⟩
  by_cases decoding : s.FSM = .DECODE
  · rw [coreTurn_run_of_DECODE decoding, runCommand_eq_commit]
    exact ⟨_, rfl, (busy_eq_false_iff _).mpr (commit_FSM _ _)⟩
  · rw [coreTurn_run_of_ne_DECODE decoding, ticks_longestCommand]
    exact ⟨_, rfl, ends⟩

/-- Settles O42: under the invariant the command is on its way, and the states left end in it. -/
theorem restOfTheSequenceIsTheCommand : Obligations.RestOfTheSequenceIsTheCommand :=
  fun s inv busy => ⟨coreTurn_run_eq_runCommand inv busy, s.statesLeft, (statesLeft_pos_iff s).mpr busy, statesLeft_le s,
    runCommand_eq_ticks ((busy_eq_true_iff s).mp busy) inv.progress inv.engineRounds⟩

end Sys2Proof.Machine
end

section
/-! O43, O44: no partial command is visible, and the host's transactions and the FSM's states commute
(70_reset_and_hazards.md R253, R254, R259). -/

namespace Sys2Proof.Machine

/-- Settles O43: a state that leaves the core busy writes only what the core holds internally. -/
theorem noPartialCommandIsVisible : Obligations.NoPartialCommandIsVisible := by
  intro s busy
  obtain ⟨f, d, q, x, k, st, next⟩ := tick_stays ((busy_eq_true_iff _).mp busy)
  rw [next]
  exact ⟨⟨⟨rfl, rfl, rfl, rfl, rfl, rfl⟩, rfl, ⟨rfl, rfl, rfl, rfl⟩, rfl, rfl, rfl⟩, ⟨rfl, rfl, rfl⟩, rfl⟩

/-- The state with other internal registers (10_state.md R20, third class). -/
def State.withInternal (s : State) (f : Fsm) (d : Fin 128) (q : Fin 8) (x k : Block) (st : Staged) : State :=
  { s with FSM := f, DRI := d, QRI := q, X := x, KW := k, staged := st }

/-! ### A transaction does not see which state of a command the core is in -/

section

variable {s : State} {f : Fsm} (d : Fin 128) (q : Fin 8) (x k : Block) (st : Staged) (busy : s.FSM ≠ .IDLE) (hf : f ≠ .IDLE)

include busy hf

theorem busy_withInternal : (s.withInternal f d q x k st).busy = s.busy := by
  rw [(busy_eq_true_iff s).mpr busy, busy_eq_true_iff]
  exact hf

theorem readReg_withInternal (r : Reg) : (s.withInternal f d q x k st).readReg r = s.readReg r := by
  have sameBusy := busy_withInternal d q x k st busy hf
  cases r
  case STATUS =>
    rw [State.readReg, State.readReg, State.statusWord, State.statusWord, sameBusy]
    rfl
  all_goals rfl

theorem memRead_withInternal (a : Access) :
    (s.withInternal f d q x k st).memRead a =
      ((s.memRead a).1, (s.memRead a).2.1, (s.memRead a).2.2.withInternal f d q x k st) := by
  have sameBusy := busy_withInternal d q x k st busy hf
  have sameReg := readReg_withInternal d q x k st busy hf
  simp only [State.memRead, sameBusy, sameReg]
  cases isWordAccess a
  · rfl
  cases regAt a.off with
  | none => rfl
  | some r =>
    dsimp only
    cases isResultReg r && s.busy <;> rfl

theorem memWrite_withInternal (a : Access) (v : Word) :
    (s.withInternal f d q x k st).memWrite a v =
      ((s.memWrite a v).1, (s.memWrite a v).2.withInternal f d q x k st) := by
  have sameWrite (r : Reg) : (s.withInternal f d q x k st).writeReg r v = (s.writeReg r v).withInternal f d q x k st := by
    by_cases status : r = .STATUS
    · simp only [State.writeReg, status, if_true, State.writeStatus]
      cases v.getLsbD 3 <;> rfl
    · rw [writeReg_busy s v status ((busy_eq_true_iff s).mpr busy),
        writeReg_busy _ v status ((busy_eq_true_iff (s.withInternal f d q x k st)).mpr hf)]
      rfl
  simp only [State.memWrite, sameWrite]
  cases isWordAccess a
  · rfl
  cases regAt a.off with
  | none => rfl
  | some r =>
    dsimp only
    cases isResultReg r <;> rfl

theorem busTransaction_withInternal (tx : Transaction) :
    (s.withInternal f d q x k st).busTransaction tx = (s.busTransaction tx).withInternal f d q x k st := by
  cases tx with
  | read a =>
    simp only [State.busTransaction, memRead_withInternal d q x k st busy hf]
    cases inWindow a <;> rfl
  | write a v =>
    simp only [State.busTransaction, memWrite_withInternal d q x k st busy hf]
    cases inWindow a <;> rfl

end

/-! ### A command does not see a transaction -/

/-- To a busy core a transaction does nothing but to its BWERR (70_reset_and_hazards.md R252, R253). -/
theorem busTransaction_busy {s : State} (busy : s.FSM ≠ .IDLE) (tx : Transaction) :
    ∃ bw r n, s.busTransaction tx = { s with BWERR := bw, replies := r, draws := n } := by
  obtain ⟨r, n, e⟩ | ⟨a, v, r, -, ⟨-, -, -, e⟩ | ⟨-, e⟩ | ⟨idle, -⟩ | ⟨g, idle, -⟩⟩ := busTransaction_effects s tx
  · exact ⟨_, _, _, e⟩
  · exact ⟨_, _, _, e⟩
  · exact ⟨_, _, _, e⟩
  · exact absurd idle busy
  · exact absurd idle busy

theorem busTransaction_tick {s : State} (busy : s.FSM ≠ .IDLE) (stays : s.tick.FSM ≠ .IDLE) (tx : Transaction) :
    (s.busTransaction tx).tick = s.tick.busTransaction tx := by
  obtain ⟨bw, r, n, e⟩ := busTransaction_busy busy tx
  obtain ⟨f, d, q, x, k, st, next⟩ := tick_stays stays
  have hf : f ≠ .IDLE := by rwa [next] at stays
  have notFinish : s.FSM ≠ .FINISH := fun finish => stays (by rw [tick_FINISH finish, commit_FSM])
  calc (s.busTransaction tx).tick
      = { s.tick with BWERR := bw, replies := r, draws := n } := by rw [e, tick_mod s bw r n notFinish]
    _ = (s.busTransaction tx).withInternal f d q x k st := by rw [next, e]; rfl
    _ = (s.withInternal f d q x k st).busTransaction tx := (busTransaction_withInternal d q x k st busy hf tx).symm
    _ = s.tick.busTransaction tx := by rw [next]; rfl

/-- Settles O44: the core writes nothing a transaction reads, and a transaction nothing the core reads. -/
theorem hostAndCoreCommuteWhileBusy : Obligations.HostAndCoreCommuteWhileBusy := by
  intro s tx busy stays
  rw [busy_eq_true_iff] at busy stays
  refine ⟨busTransaction_tick busy stays tx, fun c => ?_⟩
  obtain unseen | ⟨tx', seen⟩ := busCycle_eq c
  · rw [unseen, unseen]
  · rw [(seen s).2, (seen s.tick).2, busTransaction_tick busy stays]

end Sys2Proof.Machine
end

section
/-! O51 to O55: which moves change the engine, DOUT, DVALID, BWERR and ERR (10_state.md R20, R26, R27, R38, R42,
60_exceptions.md R228). -/

namespace Sys2Proof.Machine

/-! ### The host's moves -/

/-- The host changes neither the engine nor DOUT, nor what a command holds (10_state.md R20, R53). -/
theorem hostEffect_frame {s t : State} {turn : Turn} (effect : s.HostEffect turn t) :
    s.sameEngine t ∧ t.DOUT = s.DOUT ∧ t.X = s.X ∧ t.staged = s.staged := by
  cases effect with
  | around => exact ⟨⟨rfl, rfl, rfl, rfl⟩, rfl, rfl, rfl⟩
  | accepts => exact ⟨⟨rfl, rfl, rfl, rfl⟩, rfl, rfl, rfl⟩
  | stores idle issued reg h r =>
    obtain ⟨engine, sameDOUT, -, ⟨-, -, -, -, sameX, -, sameStaged⟩, -⟩ := writeInput_frame s reg _
    exact ⟨engine, sameDOUT, sameX, sameStaged⟩

/-- The host changes DVALID and ERR only by having a command accepted (70_reset_and_hazards.md R251). -/
theorem hostEffect_flags {s t : State} {turn : Turn} (effect : s.HostEffect turn t) :
    (t.DVALID = s.DVALID ∧ t.ERR = s.ERR) ∨
      ((turn = .program ∨ (∃ a v, turn = .bus (.write a v)) ∨ ∃ b v, turn = .cycle (.write b v)) ∧
        s.busy = false ∧ t.busy = true ∧ t.DVALID = false ∧ t.ERR = .NONE) := by
  cases effect with
  | around => exact .inl ⟨rfl, rfl⟩
  | @accepts a v idle issued h r =>
    exact .inr ⟨write_of_issues issued, (busy_eq_false_iff s).mpr idle, accept_busy s v, rfl, rfl⟩
  | stores idle issued reg h r =>
    obtain ⟨-, -, ⟨sameDVALID, -, sameERR⟩, -⟩ := writeInput_frame s reg _
    exact .inl ⟨sameDVALID, sameERR⟩

/-- Settles O51: what a move of the host can do leaves them alone. -/
theorem hostMovesKeepTheEngine : Obligations.HostMovesKeepTheEngine :=
  fun _ _ _ host move => hostEffect_frame (hostEffect_of_takeTurn host move)

/-- Settles O55: within a command ERR is not written, a commit ends one, and the host writes ERR only at acceptance. -/
theorem errKeepsTheLastOutcome : Obligations.ErrKeepsTheLastOutcome := by
  intro s t turn move changed
  obtain ⟨rfl, -⟩ | ⟨m, rfl, core⟩ | host := takeTurn_cases move
  · exact .inl rfl
  · obtain ⟨f, d, q, x, k, st, rfl⟩ | ⟨busy, st, rfl⟩ := coreTurn_cases core
    · exact absurd rfl changed
    · exact .inr (.inl ⟨⟨m, rfl⟩, busy, (busy_eq_false_iff _).mpr (commit_FSM s st)⟩)
  · obtain ⟨-, same⟩ | ⟨writes, idle, busy, -, none⟩ := hostEffect_flags (hostEffect_of_takeTurn host move)
    · exact absurd same changed
    · exact .inr (.inr ⟨writes, idle, busy, none⟩)

/-! ### The core's moves under the invariant -/

/-- A move of the core changes only what it holds internally, or completes the whole command. -/
theorem coreTurn_cases_of_inv {s t : State} {m : CoreMove} (inv : s.Inv) (move : coreTurn m s = .next t) :
    (∃ f d q x k st, t = { s with FSM := f, DRI := d, QRI := q, X := x, KW := k, staged := st }) ∨
      (s.busy = true ∧ runCommand s = .next t) := by
  by_cases idle : s.FSM = .IDLE
  case pos =>
    obtain rfl := Host.Outcome.next.inj ((coreTurn_of_IDLE idle m).symm.trans move)
    exact .inl ⟨_, _, _, _, _, _, rfl⟩
  case neg =>
    have busy := (busy_eq_true_iff s).mpr idle
    cases m with
    | tick =>
      obtain rfl := Host.Outcome.next.inj move
      by_cases stays : s.tick.FSM = .IDLE
      · exact .inr ⟨busy, runCommand_of_FINISH inv (FINISH_of_tick_IDLE idle stays)⟩
      · exact .inl (tick_stays stays)
    | run => exact .inr ⟨busy, (coreTurn_run_eq_runCommand inv busy).symm.trans move⟩
    | stall =>
      obtain rfl := Host.Outcome.next.inj move
      exact .inl ⟨_, _, _, _, _, _, rfl⟩

/-- INIT starts the counter at zero (41_init.md R157). -/
theorem commit_initResults_counter (s : State) : (s.commit s.initResults).counter = 0 := by
  have lo : (s.commit s.initResults).S[12] = 0 := by rw [commit_initResults_S, Vector.getElem_map]; rfl
  have hi : (s.commit s.initResults).S[13] = 0 := by rw [commit_initResults_S, Vector.getElem_map]; rfl
  rw [State.counter, lo, hi]
  rfl

/-- Of the commands only a valid INIT makes an engine, and none ends one (10_state.md R42). -/
theorem runCommand_INITD {s t : State} (run : runCommand s = .next t) :
    t.INITD = s.INITD ∨ (decode s.CMDL = .ok .init ∧ s.initCheck = .NONE ∧ t = s.commit s.initResults) := by
  obtain ⟨e, -, rfl⟩ | made | ⟨-, engine, rfl⟩ | ⟨-, engine, rfl⟩ := runCommand_cases run
  · exact .inl (fail_INITD s e)
  · exact .inr made
  · exact .inl (by rw [commit_INITD, engine, Bool.true_or])
  · exact .inl (by rw [commit_INITD, engine, Bool.true_or])

/-- Settles O52: the host keeps INITD, reset clears it, and the core writes it only by completing a valid INIT. -/
theorem onlyInitMakesAnEngine : Obligations.OnlyInitMakesAnEngine := by
  intro s t turn inv move
  obtain ⟨rfl, rfl⟩ | ⟨m, rfl, core⟩ | host := takeTurn_cases move
  · exact ⟨fun _ _ => rfl, fun _ made => nomatch made⟩
  · have keeps : t.INITD = s.INITD ∨
        (s.busy = true ∧ decode s.CMDL = .ok .init ∧ s.initCheck = .NONE ∧ t = s.commit s.initResults) := by
      obtain ⟨f, d, q, x, k, st, rfl⟩ | ⟨busy, run⟩ := coreTurn_cases_of_inv inv core
      · exact .inl rfl
      · exact (runCommand_INITD run).imp_right (.intro busy)
    obtain same | ⟨busy, decoded, legal, rfl⟩ := keeps
    · rw [same]
      exact ⟨fun engine none => (nomatch engine.symm.trans none), fun none engine => (nomatch none.symm.trans engine)⟩
    · refine ⟨fun engine none => ?_, fun _ _ => ⟨⟨m, rfl⟩, busy, (busy_eq_false_iff _).mpr (commit_FSM s _), decoded, legal,
        commit_ERR s _, commit_initResults_counter s⟩⟩
      rw [commit_INITD, engine, Bool.true_or] at none
      cases none
  · obtain ⟨⟨-, -, same, -⟩, -⟩ := hostEffect_frame (hostEffect_of_takeTurn host move)
    rw [same]
    exact ⟨fun engine none => (nomatch engine.symm.trans none), fun none engine => (nomatch none.symm.trans engine)⟩

/-- Of the commands only a valid PROCESS writes DVALID and DOUT (10_state.md R26, R38). -/
theorem runCommand_output {s t : State} (run : runCommand s = .next t) :
    (t.DVALID = s.DVALID ∧ t.DOUT = s.DOUT) ∨
      (decode s.CMDL = .ok (.process 64) ∧ s.INITD = true ∧ t = s.commit s.processResults) := by
  obtain ⟨e, -, rfl⟩ | ⟨-, -, rfl⟩ | made | ⟨-, -, rfl⟩ := runCommand_cases run
  · exact .inl ⟨fail_DVALID s e, fail_DOUT s e⟩
  · exact .inl ⟨Bool.or_false s.DVALID, commit_DOUT s _⟩
  · exact .inr made
  · exact .inl ⟨Bool.or_false s.DVALID, commit_DOUT s _⟩

/-- Settles O54: the host keeps DOUT and only clears DVALID, by acceptance; the core writes them only by completing a valid
PROCESS, from DVALID = 0. -/
theorem onlyProcessWritesTheOutput : Obligations.OnlyProcessWritesTheOutput := by
  intro s t turn inv move
  obtain ⟨rfl, rfl⟩ | ⟨m, rfl, core⟩ | host := takeTurn_cases move
  · exact ⟨fun _ valid => (nomatch valid), fun _ _ => .inl rfl, fun _ => .inl rfl⟩
  · have keeps : (t.DVALID = s.DVALID ∧ t.DOUT = s.DOUT) ∨ (s.busy = true ∧ decode s.CMDL = .ok (.process 64) ∧
        s.INITD = true ∧ t = s.commit s.processResults) := by
      obtain ⟨f, d, q, x, k, st, rfl⟩ | ⟨busy, run⟩ := coreTurn_cases_of_inv inv core
      · exact .inl ⟨rfl, rfl⟩
      · exact (runCommand_output run).imp_right (.intro busy)
    obtain ⟨sameDVALID, sameDOUT⟩ | ⟨busy, decoded, engine, rfl⟩ := keeps
    · rw [sameDVALID]
      exact ⟨fun invalid valid => (nomatch invalid.symm.trans valid), fun valid invalid => (nomatch valid.symm.trans invalid),
        fun changed => absurd sameDOUT changed⟩
    · obtain ⟨invalid, -⟩ := inv.busyFlags busy
      have valid : (s.commit s.processResults).DVALID = true := Bool.or_true s.DVALID
      exact ⟨fun _ _ => ⟨⟨m, rfl⟩, busy, (busy_eq_false_iff _).mpr (commit_FSM s _), decoded, engine, commit_ERR s _,
          commit_processResults_DOUT s, commit_processResults_counter s⟩,
        fun wasValid => (nomatch invalid.symm.trans wasValid), fun _ => .inr ⟨invalid, valid⟩⟩
  · have effect := hostEffect_of_takeTurn host move
    obtain ⟨-, sameDOUT, -⟩ := hostEffect_frame effect
    refine ⟨fun invalid valid => ?set, fun valid invalid => .inr ?cleared, fun changed => absurd sameDOUT changed⟩
    all_goals obtain ⟨same, -⟩ | ⟨writes, idle, busy, cleared, -⟩ := hostEffect_flags effect
    case set.inl => exact nomatch invalid.symm.trans (same.symm.trans valid)
    case set.inr => exact nomatch cleared.symm.trans valid
    case cleared.inl => exact nomatch valid.symm.trans (same.symm.trans invalid)
    case cleared.inr => exact ⟨writes, idle, busy⟩

/-! ### BWERR -/

/-- The write that a turn issues to a register is placed, at an offset or at an address, or is the statement at the host's
line. -/
theorem write_source {s : State} {turn : Turn} {a : Access} {v : Word} {r : Reg} (issued : s.Issues turn (.write a v))
    (word : isWordAccess a = true) (found : regAt a.off = some r) :
    (∃ a, (turn = .bus (.write a v) ∨ turn = .cycle (.write (atAddress a) v)) ∧ isWordAccess a = true ∧
        regAt a.off = some r) ∨
      (turn = .program ∧ ∃ line, s.host.program[s.host.line]? = some line ∧ line.stmt = .wr r v) := by
  cases issued with
  | bus => exact .inl ⟨a, .inl rfl, word, found⟩
  | cycleWrite => exact .inl ⟨a, .inr rfl, word, found⟩
  | wr r' v next stmt =>
    obtain rfl := Option.some.inj ((regAt_regOffset r').symm.trans found)
    exact .inr ⟨rfl, _, next, stmt⟩

/-- A transaction changes BWERR only by a write: to STATUS, which can clear it, or to another writable register of a busy
core, which sets it (10_state.md R27). -/
theorem busTransaction_BWERR (s : State) (tx : Transaction) :
    (s.busTransaction tx).BWERR = s.BWERR ∨
      ∃ a v r, tx = .write a v ∧ isWordAccess a = true ∧ regAt a.off = some r ∧
        ((r = .STATUS ∧ v.getLsbD 3 = true ∧ (s.busTransaction tx).BWERR = false) ∨
          (s.busy = true ∧ isResultReg r = false ∧ r ≠ .STATUS ∧ (s.busTransaction tx).BWERR = true)) := by
  obtain e | ⟨a, rfl, e⟩ | ⟨a, v, rfl, e⟩ := busTransaction_cases s tx
  · exact .inl (by rw [e])
  · rw [e]
    obtain ⟨e', -⟩ | ⟨r, -, -, ⟨-, -, e'⟩ | ⟨-, e'⟩⟩ := memRead_cases s a
    all_goals exact .inl (by rw [e']; rfl)
  · rw [e]
    obtain ⟨e', -⟩ | ⟨r, word, found, writable, e'⟩ := memWrite_cases s a v
    · exact .inl (by rw [e']; rfl)
    rw [e']
    obtain ⟨rfl, w⟩ | ⟨notStatus, busy, w⟩ | ⟨-, -, w⟩ | ⟨-, -, -, w⟩ := writeReg_cases s r v
    all_goals rw [w]
    · obtain ⟨bit, c⟩ | ⟨-, c⟩ := writeStatus_cases s v
      all_goals rw [c]
      · exact .inr ⟨a, v, _, rfl, word, found, .inl ⟨rfl, bit, rfl⟩⟩
      · exact .inl rfl
    · exact .inr ⟨a, v, r, rfl, word, found, .inr ⟨(busy_eq_true_iff s).mpr busy, writable, notStatus, rfl⟩⟩
    · exact .inl rfl
    · obtain ⟨-, -, ⟨-, same, -⟩, -⟩ := writeInput_frame s r v
      exact .inl same

/-- What changes BWERR in a move, and what it becomes (10_state.md R27). -/
theorem takeTurn_BWERR {s t : State} {turn : Turn} (move : takeTurn turn s = .next t) :
    (turn = .reset ∧ t.BWERR = false) ∨ (turn ≠ .reset ∧ t.BWERR = s.BWERR) ∨
      ∃ a v r, s.Issues turn (.write a v) ∧ isWordAccess a = true ∧ regAt a.off = some r ∧
        ((r = .STATUS ∧ v.getLsbD 3 = true ∧ t.BWERR = false) ∨
          (s.busy = true ∧ isResultReg r = false ∧ r ≠ .STATUS ∧ t.BWERR = true)) := by
  obtain ⟨rfl, rfl⟩ | ⟨m, rfl, core⟩ | host := takeTurn_cases move
  · exact .inl ⟨rfl, rfl⟩
  · obtain ⟨f, d, q, x, k, st, rfl⟩ | ⟨-, st, rfl⟩ := coreTurn_cases core
    · exact .inr (.inl ⟨nofun, rfl⟩)
    · exact .inr (.inl ⟨nofun, commit_BWERR s st⟩)
  · have notReset : turn ≠ .reset := by rintro rfl; obtain h | ⟨_, h⟩ | ⟨_, h⟩ := host <;> cases h
    obtain ⟨h, rfl | ⟨tx, issued, rfl⟩⟩ := takeTurn_host_cases host move
    · exact .inr (.inl ⟨notReset, rfl⟩)
    · obtain same | ⟨a, v, r, rfl, write⟩ := busTransaction_BWERR s tx
      · exact .inr (.inl ⟨notReset, same⟩)
      · exact .inr (.inr ⟨a, v, r, issued, write⟩)

/-- A turn that issues no write changes no BWERR, but reset does. -/
theorem takeTurn_BWERR_of_no_write {s t : State} {turn : Turn} (move : takeTurn turn s = .next t) (notReset : turn ≠ .reset)
    (noWrite : ∀ a v, ¬s.Issues turn (.write a v)) : t.BWERR = s.BWERR := by
  obtain ⟨reset, -⟩ | ⟨-, same⟩ | ⟨a, v, r, issued, -⟩ := takeTurn_BWERR move
  · exact absurd reset notReset
  · exact same
  · exact absurd issued (noWrite a v)

/-- Settles O53: a move that changes BWERR is reset or issues a write, and the write's register says what BWERR becomes. -/
theorem bwerrIsSticky : Obligations.BwerrIsSticky := by
  intro s t turn move
  refine ⟨fun clear set => ?sets, fun set clear => ?clears, ?core, ?read, ?cycleRead, ?reset⟩
  case sets =>
    obtain ⟨-, cleared⟩ | ⟨-, same⟩ | ⟨a, v, r, issued, word, found, ⟨-, -, cleared⟩ | ⟨busy, writable, notStatus, -⟩⟩ :=
      takeTurn_BWERR move
    · exact nomatch cleared.symm.trans set
    · exact nomatch clear.symm.trans (same.symm.trans set)
    · exact nomatch cleared.symm.trans set
    · exact ⟨busy, r, v, writable, notStatus, write_source issued word found⟩
  case clears =>
    obtain ⟨reset, -⟩ | ⟨-, same⟩ | ⟨a, v, r, issued, word, found, ⟨rfl, bit, -⟩ | ⟨-, -, -, sets⟩⟩ := takeTurn_BWERR move
    · exact .inl reset
    · exact nomatch set.symm.trans (same.symm.trans clear)
    · exact .inr ⟨v, bit, write_source issued word found⟩
    · exact nomatch sets.symm.trans clear
  case core =>
    rintro m rfl
    exact takeTurn_BWERR_of_no_write move nofun nofun
  case read =>
    rintro a rfl
    exact takeTurn_BWERR_of_no_write move nofun nofun
  case cycleRead =>
    rintro b rfl
    exact takeTurn_BWERR_of_no_write move nofun nofun
  case reset =>
    rintro rfl
    obtain rfl := Host.Outcome.next.inj move
    rfl

end Sys2Proof.Machine
end

section
/-! O29 to O31: the register map, the fields of STATUS and the byte views of the data banks (20_memory.md R61 to R63,
10_state.md R23). -/

namespace Sys2Proof.Machine

/-! ### The register map -/

theorem regOffset_aligned (r : Reg) : regOffset r % 4 = 0 := by
  cases r <;> simp [regOffset]

theorem regOffset_lt (r : Reg) : regOffset r < 0x100 := by
  cases r <;> simp only [regOffset] <;> omega

/-- A register is found at no other aligned offset than its own (20_memory.md R61). -/
theorem regOffset_of_regAt {off : Nat} {r : Reg} (aligned : off % 4 = 0) (found : regAt off = some r) :
    regOffset r = off := by
  revert found
  fun_cases regAt off
  all_goals
    intro found
    simp only [Option.some.injEq, reduceCtorEq] at found
  all_goals
    subst found
    simp only [regOffset, Fin.val_ofNat]
    omega

/-- Settles O29: each register is found at its own offset and there only, and the offsets without one are the reserved
ones. -/
theorem registerMapOffsets : Obligations.RegisterMapOffsets :=
  ⟨⟨rfl, rfl, rfl, fun k => regAt_regOffset (.KEY k), rfl, rfl, rfl, rfl, rfl, rfl, fun k => regAt_regOffset (.DIN k),
      fun k => regAt_regOffset (.DOUT k)⟩,
    fun r => ⟨regAt_regOffset r, regOffset_aligned r, regOffset_lt r⟩, fun _ => regAt_eq_none_iff,
    fun _ _ => regOffset_of_regAt⟩

/-! ### STATUS -/

/-- Appending m bits to a number of k bits gives one of k + m bits. -/
theorem toNat_append_lt {n m k : Nat} {x : BitVec n} (y : BitVec m) (h : x.toNat < 2 ^ k) :
    (x ++ y).toNat < 2 ^ (k + m) := by
  rw [BitVec.toNat_append, ← Nat.shiftLeft_add_eq_or_of_lt y.isLt, Nat.shiftLeft_eq, Nat.pow_add]
  calc x.toNat * 2 ^ m + y.toNat
      < x.toNat * 2 ^ m + 2 ^ m := Nat.add_lt_add_left y.isLt _
    _ = (x.toNat + 1) * 2 ^ m := (Nat.succ_mul _ _).symm
    _ ≤ 2 ^ k * 2 ^ m := Nat.mul_le_mul_right _ h

/-- STATUS has no bit above KEY256 (10_state.md R23). -/
theorem statusWord_lt (s : State) : s.statusWord.toNat < 2 ^ 17 := by
  have reserved : (0 : BitVec 15).toNat < 2 ^ 0 := by decide
  exact toNat_append_lt _ (toNat_append_lt _ (toNat_append_lt _ (toNat_append_lt _ (toNat_append_lt _
    (toNat_append_lt _ (toNat_append_lt _ reserved))))))

/-- Dropping the m bits of the field below. -/
theorem getLsbD_append_add {n m : Nat} (x : BitVec n) (y : BitVec m) (i : Nat) :
    (x ++ y).getLsbD (i + m) = x.getLsbD i := by
  rw [BitVec.getLsbD_append, if_neg (by omega), Nat.add_sub_cancel]

/-- A flag is the lowest bit where it is appended. -/
theorem getLsbD_append_ofBool {n : Nat} (x : BitVec n) (b : Bool) : (x ++ BitVec.ofBool b).getLsbD 0 = b := by
  rw [BitVec.getLsbD_append, if_pos Nat.one_pos]
  cases b <;> rfl

/-- Settles O30: each field is what is left of the concatenation once the fields below it are dropped. -/
theorem statusFields : Obligations.StatusFields := by
  refine ⟨by decide, fun s => ⟨?busy, ?initd, ?dvalid, ?bwerr, ?err, ?rounds, ?key256, statusWord_lt s⟩⟩
  case busy => exact getLsbD_append_ofBool _ _
  case initd => exact (getLsbD_append_add _ _ 0).trans (getLsbD_append_ofBool _ _)
  case dvalid =>
    exact (getLsbD_append_add _ _ 1).trans ((getLsbD_append_add _ _ 0).trans (getLsbD_append_ofBool _ _))
  case bwerr =>
    exact (getLsbD_append_add _ _ 2).trans ((getLsbD_append_add _ _ 1).trans
      ((getLsbD_append_add _ _ 0).trans (getLsbD_append_ofBool _ _)))
  case key256 =>
    exact (getLsbD_append_add _ _ 15).trans ((getLsbD_append_add _ _ 14).trans ((getLsbD_append_add _ _ 13).trans
      ((getLsbD_append_add _ _ 12).trans ((getLsbD_append_add _ s.ERR.code 8).trans ((getLsbD_append_add _ s.RND 0).trans
        (getLsbD_append_ofBool _ _))))))
  all_goals
    refine (BitVec.extractLsb'_append_eq_of_le (by decide)).trans ((BitVec.extractLsb'_append_eq_of_le (by decide)).trans
      ((BitVec.extractLsb'_append_eq_of_le (by decide)).trans ((BitVec.extractLsb'_append_eq_of_le (by decide)).trans ?_)))
  case err => exact BitVec.extractLsb'_append_eq_right
  case rounds => exact (BitVec.extractLsb'_append_eq_of_le (by decide)).trans BitVec.extractLsb'_append_eq_right

/-! ### Bytes -/

/-- Byte j of a bank is lane j mod 4 of its register j div 4 (20_memory.md R62). -/
theorem windowByte_of_bank (s : State) {base j : Nat} {r : Reg} (aligned : base % 4 = 0)
    (h : regOffset r = base + 4 * (j / 4)) :
    s.windowByte (base + j) = some (laneByte (s.readReg r) ⟨j % 4, Nat.mod_lt j (by decide)⟩) := by
  have word : 4 * ((base + j) / 4) = regOffset r := by omega
  have lane : (base + j) % 4 = j % 4 := by omega
  simp only [State.windowByte, word, regAt_regOffset, lane, Option.map_some]

theorem keyByte_lane (s : State) (k : Fin 8) (i : Fin 4) (h : 4 * k.val + i.val < 32) :
    s.keyByte ⟨4 * k.val + i.val, h⟩ = laneByte s.KEY[k] i := by
  have word : (4 * k.val + i.val) / 4 = k.val := by omega
  have lane : (4 * k.val + i.val) % 4 = i.val := by omega
  simp only [State.keyByte, word, lane, Fin.getElem_fin]

theorem ivByte_lane (s : State) (k : Fin 2) (i : Fin 4) (h : 4 * k.val + i.val < 8) :
    s.ivByte ⟨4 * k.val + i.val, h⟩ = laneByte s.IV[k] i := by
  have word : (4 * k.val + i.val) / 4 = k.val := by omega
  have lane : (4 * k.val + i.val) % 4 = i.val := by omega
  simp only [State.ivByte, word, lane, Fin.getElem_fin]

/-- Settles O31: byte j of a bank is lane j mod 4 of its register j div 4, and a word is `le_word` of its lanes. -/
theorem byteSequencesInTheWindow : Obligations.ByteSequencesInTheWindow := by
  intro s
  refine ⟨fun j => ?key, fun j => ?iv, fun j => ?input, fun j => ?output, fun k => ?keyWord, fun k => ?ivWord,
    packWords_serialize s.DIN, packWords_serialize s.DOUT⟩
  case key => exact windowByte_of_bank s (r := .KEY ⟨j.val / 4, by omega⟩) rfl rfl
  case iv => exact windowByte_of_bank s (r := .IV ⟨j.val / 4, by omega⟩) rfl rfl
  case input =>
    rw [State.inputBlock, Fin.getElem_fin, serialize_getElem]
    exact windowByte_of_bank s (r := .DIN ⟨j.val / 4, by omega⟩) rfl rfl
  case output =>
    rw [State.outputBlock, Fin.getElem_fin, serialize_getElem]
    exact windowByte_of_bank s (r := .DOUT ⟨j.val / 4, by omega⟩) rfl rfl
  case keyWord =>
    rw [← leWord_laneBytes s.KEY[k], ← keyByte_lane, ← keyByte_lane, ← keyByte_lane, ← keyByte_lane]
    rfl
  case ivWord =>
    rw [← leWord_laneBytes s.IV[k], ← ivByte_lane, ← ivByte_lane, ← ivByte_lane, ← ivByte_lane]
    rfl

end Sys2Proof.Machine
end

section
/-! O32, O38, O39: what reads answer, and writes and hosts without hazards (20_memory.md R66, R72, 70_reset_and_hazards.md
R262, R263). -/

namespace Sys2Proof.Machine

/-! ### Reads -/

/-- A read of a register whose value is defined answers it and changes nothing (20_memory.md R66, R71). -/
theorem memRead_value (s : State) {a : Access} {r : Reg} (word : isWordAccess a = true) (found : regAt a.off = some r)
    (defined : isResultReg r = false ∨ s.busy = false) : s.memRead a = (.okay, s.readReg r, s) := by
  have noDraw : (isResultReg r && s.busy) = false := by rwa [Bool.and_eq_false_iff]
  simp only [State.memRead, word, found, noDraw, if_true, Bool.false_eq_true, if_false]

/-- A read of a result while BUSY = 1 is a draw (70_reset_and_hazards.md R254). -/
theorem memRead_draw (s : State) {a : Access} {r : Reg} (word : isWordAccess a = true) (found : regAt a.off = some r)
    (result : isResultReg r = true) (busy : s.busy = true) :
    s.memRead a = (.okay, Config.drawWord s.draws, { s with draws := s.draws + 1 }) := by
  simp only [State.memRead, word, found, result, busy, Bool.and_self, if_true]

/-- A read that names no register is a bus error (20_memory.md R66). -/
theorem memRead_busError (s : State) {a : Access} (bad : isWordAccess a = false ∨ regAt a.off = none) :
    s.memRead a = (.busError a.off, 0, s) := by
  refine (memRead_okay_or_busError s a).resolve_left fun okay => ?_
  have refused := (memRead_busError_iff s a).mpr bad
  exact nomatch okay.symm.trans refused

/-- No read changes the core, or what is around it (20_memory.md R71). -/
theorem memRead_frame (s : State) (a : Access) : s.sameCore (s.memRead a).2.2 ∧ s.sameAround (s.memRead a).2.2 := by
  obtain ⟨e, -⟩ | ⟨r, -, -, ⟨-, -, e⟩ | ⟨-, e⟩⟩ := memRead_cases s a
  all_goals
    rw [e]
    exact ⟨⟨⟨rfl, rfl, rfl, rfl, rfl, rfl⟩, rfl, ⟨rfl, rfl, rfl, rfl⟩, ⟨rfl, rfl, rfl⟩, rfl, rfl, rfl, rfl, rfl, rfl, rfl⟩,
      rfl, rfl, rfl⟩

/-- Settles O32: a read that names no register is a bus error, one of a result while BUSY = 1 a draw, and any other answers
the register. -/
theorem readAnswers : Obligations.ReadAnswers := by
  intro s a window
  obtain ⟨sameCore, sameAround⟩ := memRead_frame s a
  refine ⟨sameCore, sameAround, fun malformed => ?malformed, fun aligned bytes lanes => ?wellShaped⟩
  case malformed =>
    rw [memRead_busError s (.inl ((isWordAccess_eq_false_iff a).mpr malformed))]
    exact ⟨rfl, rfl⟩
  case wellShaped =>
    have word : isWordAccess a = true := decide_eq_true ⟨aligned, bytes, lanes⟩
    have value {r : Reg} (found : regAt a.off = some r) (defined : isResultReg r = false ∨ s.busy = false) :
        (s.memRead a).2.1 = s.readReg r := by rw [memRead_value s word found defined]
    refine ⟨fun reserved => ?reserved, fun cmd => ?cmd, fun h => value h (.inl rfl), fun h => value h (.inl rfl),
      fun k h => value h (.inl rfl), fun k h => value h (.inl rfl), fun h => value h (.inl rfl), fun h => value h (.inl rfl),
      fun k h => value h (.inl rfl), fun h idle => value h (.inr idle), fun h idle => value h (.inr idle),
      fun k h idle => value h (.inr idle), fun r found => ⟨?okay, fun ⟨result, busy⟩ => ?draw, value found⟩⟩
    case reserved =>
      rw [memRead_busError s (.inr reserved)]
      exact ⟨rfl, rfl⟩
    case cmd =>
      rw [memRead_value s word cmd (.inl rfl)]
      exact ⟨rfl, rfl⟩
    case okay =>
      refine (memRead_okay_or_busError s a).resolve_right fun refused => ?_
      have bad := (memRead_busError_iff s a).mp (congrArg Prod.fst refused)
      simp [word, found] at bad
    case draw => rw [memRead_draw s word found result busy]

/-! ### Writes -/

/-- An input register reads what was stored; CONFIG masks it (20_memory.md R72, 10_state.md R22). -/
theorem readReg_writeInput (s : State) {r : Reg} (v : Word) (writable : isResultReg r = false) (notStatus : r ≠ .STATUS)
    (notCmd : r ≠ .CMD) : (s.writeInput r v).readReg r = if r = .CONFIG then v &&& 0x00FFFFFF else v := by
  cases r <;> simp_all [State.writeInput, State.readReg, isResultReg]

/-- Storing twice is storing once (20_memory.md R72). -/
theorem writeInput_writeInput (s : State) (r : Reg) (v : Word) : (s.writeInput r v).writeInput r v = s.writeInput r v := by
  cases r <;> simp [State.writeInput]

/-- Settles O38: an idle core stores an input and stays idle; a command makes it busy, and a busy one drops the second. -/
theorem inputWritesAreIdempotent : Obligations.InputWritesAreIdempotent := by
  intro s r v idle writable notStatus
  refine ⟨fun notCmd => ?input, ?command⟩
  case input =>
    obtain ⟨-, -, -, ⟨sameFSM, -⟩, -⟩ := writeInput_frame s r v
    have idle' : (s.writeInput r v).busy = false := by rwa [busy_eq_false_iff, sameFSM, ← busy_eq_false_iff]
    rw [writeReg_idle s v notStatus notCmd idle, writeReg_idle _ v notStatus notCmd idle']
    exact ⟨writeInput_writeInput s r v, readReg_writeInput s v writable notStatus notCmd⟩
  case command =>
    rintro rfl
    have accepted : s.writeReg .CMD v = s.accept v := by simp [State.writeReg, idle]
    rw [accepted, writeReg_busy _ v notStatus (accept_busy s v)]
    exact ⟨accept_BWERR s v, dropWrite_BWERR _⟩

/-! ### A disciplined host -/

theorem disciplined_read_iff (s : State) (a : Access) :
    s.disciplined (.read a) = true ↔
      isWordAccess a = true ∧ ∃ r, regAt a.off = some r ∧ (isResultReg r = false ∨ s.busy = false) := by
  cases found : regAt a.off <;> simp [State.disciplined, found, or_iff_not_imp_left]

theorem disciplined_write_iff (s : State) (a : Access) (v : Word) :
    s.disciplined (.write a v) = true ↔
      isWordAccess a = true ∧ ∃ r, regAt a.off = some r ∧ isResultReg r = false ∧ (r = .STATUS ∨ s.busy = false) := by
  cases found : regAt a.off <;> simp [State.disciplined, found]

/-- Off the hazards a write never sets BWERR (70_reset_and_hazards.md R263). -/
theorem writeReg_BWERR {s : State} {r : Reg} (v : Word) (clear : r = .STATUS ∨ s.busy = false)
    (set : (s.writeReg r v).BWERR = true) : s.BWERR = true := by
  obtain ⟨-, w⟩ | ⟨notStatus, busy, w⟩ | ⟨-, -, w⟩ | ⟨-, -, -, w⟩ := writeReg_cases s r v
  all_goals rw [w] at set
  · obtain ⟨-, c⟩ | ⟨-, c⟩ := writeStatus_cases s v
    all_goals rw [c] at set
    · cases set
    · exact set
  · exact absurd ((busy_eq_false_iff s).mp (clear.resolve_left notStatus)) busy
  · exact set
  · obtain ⟨-, -, ⟨-, same, -⟩, -⟩ := writeInput_frame s r v
    exact same.symm.trans set

/-- Settles O39: such a read answers the register, and such a write is not dropped. -/
theorem disciplinedHostIsSafe : Obligations.DisciplinedHostIsSafe := by
  intro s a v
  rw [disciplined_read_iff, disciplined_write_iff]
  constructor
  · rintro ⟨word, r, found, defined⟩
    exact ⟨r, found, memRead_value s word found defined⟩
  · rintro ⟨word, r, found, writable, clear⟩
    have write : s.memWrite a v = (.okay, s.writeReg r v) := by simp [State.memWrite, word, found, writable]
    rw [write]
    refine ⟨rfl, writeReg_BWERR v clear, fun r' found' notStatus notCmd => ?_⟩
    obtain rfl := Option.some.inj (found.symm.trans found')
    exact writeReg_idle s v notStatus notCmd (clear.resolve_left notStatus)

end Sys2Proof.Machine
end

section
/-! O9, O45, O46, O49, O50: the pipeline, and what a step does (00_scope.md R18, 40_datapath.md R124, 70_reset_and_hazards.md
R250). -/

namespace Sys2Proof.Machine

/-- The four stages in a row are the four lines of the quarter-round (40_datapath.md R124). -/
theorem qs4_qs3_qs2_qs1 (q : Quad) : qs4 (qs3 (qs2 (qs1 q))) = qr q := rfl

/-- Settles O9; the worked example by evaluation. -/
theorem pipelineComputesQuarterRound : Obligations.PipelineComputesQuarterRound :=
  ⟨qs4_qs3_qs2_qs1, by decide, by decide, by decide, by decide⟩

/-! ### Whose turn it is -/

/-- A placed turn is taken, and used up (00_scope.md R18). -/
theorem step_of_turns {s : State} {turn : Turn} {rest : List Turn} (placed : s.turns = turn :: rest) :
    step s = takeTurn turn { s with turns := rest } := by
  simp only [step, State.nextTurn, placed]

/-- Without a placed turn a busy core runs its command to the end (log 5). -/
theorem step_of_busy {s : State} (none : s.turns = []) (busy : s.busy = true) : step s = coreTurn .run s := by
  simp only [step, State.nextTurn, none, busy, if_true, takeTurn]

/-- Without a placed turn and with an idle core the host's program takes its turn (log 5). -/
theorem step_of_idle {s : State} (none : s.turns = []) (idle : s.busy = false) : step s = .next s.hostTurn := by
  by_cases running : s.host.running = true
  · simp only [step, State.nextTurn, none, idle, running, if_true, Bool.false_eq_true, if_false, takeTurn]
  · have ended : s.hostTurn = s := if_neg running
    simp only [step, State.nextTurn, none, idle, running, Bool.false_eq_true, if_false, ended]

/-- The core's merged move, in each part of a command (70_reset_and_hazards.md R255, R258, 60_exceptions.md R213). -/
theorem coreTurn_run_cases (u : State) :
    (u.FSM = .IDLE → coreTurn .run u = .next u) ∧
    (u.FSM = .DECODE → (∀ i, decode u.CMDL = .ok i → coreTurn .run u = exec i u) ∧
      ∀ e, decode u.CMDL = .error e → coreTurn .run u = .next u.completeIllegal) ∧
    (u.FSM ≠ .IDLE → u.FSM ≠ .DECODE → coreTurn .run u = .next (u.ticks longestCommand)) := by
  refine ⟨fun idle => coreTurn_of_IDLE idle .run, fun decoding => ?_, fun _ within => coreTurn_run_of_ne_DECODE within⟩
  rw [coreTurn_run_of_DECODE decoding]
  exact ⟨fun i decoded => runCommand_of_ok decoded, fun e illegal => runCommand_of_error illegal⟩

/-- Settles O45: the step is the core's merged move, which from DECODE is the command. -/
theorem stepRunsTheAcceptedCommand : Obligations.StepRunsTheAcceptedCommand := by
  intro s i decoding decoded
  refine ⟨fun rest placed => ?placed, fun none => ?default⟩
  case placed =>
    obtain ⟨-, fromDecode, -⟩ := coreTurn_run_cases { s with turns := rest }
    exact (step_of_turns placed).trans ((fromDecode decoding).1 i decoded)
  case default =>
    obtain ⟨-, fromDecode, -⟩ := coreTurn_run_cases s
    rw [step_of_busy none (by simp [decoding])]
    exact (fromDecode decoding).1 i decoded

/-- Settles O46: a placed turn is taken, and the defaults are the merged move and the host's turn. -/
theorem stepTakesTheFirstTurn : Obligations.StepTakesTheFirstTurn := by
  intro s rest
  refine ⟨fun _ => step_of_turns, fun _ => step_of_turns, fun placed => ⟨step_of_turns placed, ?line, ?ended⟩, step_of_turns,
    ?run, step_of_turns, step_of_turns, fun none idle => ⟨?defaultLine, ?defaultEnded⟩⟩
  case line =>
    intro line running next
    rw [step_of_turns placed, takeTurn, hostTurn_of_line (s := { s with turns := rest }) running next]
  case ended =>
    intro ended
    rw [step_of_turns placed, takeTurn, hostTurn_of_ended (s := { s with turns := rest }) ended]
  case run =>
    rintro u (⟨placed, rfl⟩ | ⟨none, busy, rfl⟩)
    · rw [step_of_turns placed]
      exact coreTurn_run_cases { s with turns := rest }
    · rw [step_of_busy none busy]
      exact coreTurn_run_cases u
  case defaultLine =>
    intro line running next
    rw [step_of_idle none idle, hostTurn_of_line running next]
  case defaultEnded =>
    intro ended
    rw [step_of_idle none idle, hostTurn_of_ended ended]

/-! ### Every step answers a next state -/

theorem coreTurn_next (m : CoreMove) (s : State) : ∃ t, coreTurn m s = .next t := by
  cases m with
  | tick => exact ⟨_, rfl⟩
  | stall => exact ⟨_, rfl⟩
  | run =>
    by_cases decoding : s.FSM = .DECODE
    · exact ⟨_, (coreTurn_run_of_DECODE decoding).trans (runCommand_eq_commit s)⟩
    · exact ⟨_, coreTurn_run_of_ne_DECODE decoding⟩

theorem takeTurn_next (turn : Turn) (s : State) : ∃ t, takeTurn turn s = .next t := by
  cases turn with
  | core m => exact coreTurn_next m s
  | bus tx => exact ⟨_, rfl⟩
  | cycle c => exact ⟨_, rfl⟩
  | program => exact ⟨_, rfl⟩
  | reset => exact ⟨_, rfl⟩

/-- Settles O49: whoever moves answers a next state. -/
theorem everyStateHasANextState : Obligations.EveryStateHasANextState := by
  intro s
  obtain ⟨turn, rest, -, e⟩ | ⟨-, -, e⟩ | ⟨-, -, -, e⟩ | ⟨-, -, -, e⟩ := step_cases s
  · rw [e]; exact takeTurn_next turn _
  · rw [e]; exact coreTurn_next .run s
  · exact ⟨_, e⟩
  · exact ⟨_, e⟩

/-- Settles O50: the step is the reset event, which gives the core the values of the reset state. -/
theorem resetAbortsEverything : Obligations.ResetAbortsEverything := by
  intro s rest placed
  have zeros (k : Fin 16) : (Vector.replicate 16 (0 : Word))[k] = 0 := Vector.getElem_replicate _
  have status : State.reset.statusWord = 0 := by decide
  exact ⟨_, step_of_turns placed, rfl, status, fun k => Vector.getElem_replicate _, fun k => Vector.getElem_replicate _, rfl, rfl,
    rfl, rfl, fun k => ⟨zeros k, zeros k, zeros k⟩, rfl, rfl, rfl, rfl, rfl, rfl, rfl⟩

end Sys2Proof.Machine
end

section
/-! O56 to O58: what the host observes, where the window is, and what the host's statements do (00_scope.md R19, 20_memory.md
R60, R69, 30_encoding.md R100). -/

namespace Sys2Proof.Machine

/-- The core does not see an access outside its window (20_memory.md R69). -/
theorem busTransaction_outside (s : State) {a : Access} (outside : 0x100 ≤ a.off) (v : Word) :
    s.busTransaction (.read a) = s ∧ s.busTransaction (.write a v) = s := by
  have unseen : inWindow a = false := decide_eq_false (Nat.not_lt.mpr outside)
  simp [State.busTransaction, unseen]

/-- A write to a register does not reach the host, what it has observed, or the schedule. -/
theorem sameAround_writeReg (s : State) (r : Reg) (v : Word) : s.sameAround (s.writeReg r v) := by
  obtain ⟨-, e⟩ | ⟨-, -, e⟩ | ⟨-, -, e⟩ | ⟨-, -, -, e⟩ := writeReg_cases s r v
  all_goals rw [e]
  · obtain ⟨-, e'⟩ | ⟨-, e'⟩ := writeStatus_cases s v
    all_goals
      rw [e']
      exact ⟨rfl, rfl, rfl⟩
  · exact sameAround_dropWrite s
  · exact sameAround_accept s v
  · obtain ⟨-, -, -, -, around, -⟩ := writeInput_frame s r v
    exact around

theorem sameAround_memWrite (s : State) (a : Access) (v : Word) : s.sameAround (s.memWrite a v).2 := by
  obtain ⟨e, -⟩ | ⟨r, -, -, -, e⟩ := memWrite_cases s a v
  all_goals rw [e]
  · exact ⟨rfl, rfl, rfl⟩
  · exact sameAround_writeReg s r v

/-- Inside the window a transaction is the operation and its reply (20_memory.md R66, R67, 00_scope.md R19). -/
theorem busTransaction_inside (s : State) {a : Access} (inside : a.off < 0x100) (v : Word) :
    s.busTransaction (.read a) = (s.memRead a).2.2.logReply (.read a.off (s.memRead a).1 (s.memRead a).2.1) ∧
      s.busTransaction (.write a v) = (s.memWrite a v).2.logReply (.write a.off (s.memWrite a v).1) := by
  have seen : inWindow a = true := decide_eq_true inside
  simp [State.busTransaction, seen]

/-- Settles O56: outside the window nothing happens; inside it the operation, which logs nothing itself, and then its reply. -/
theorem hostObservesTheAnswers : Obligations.HostObservesTheAnswers := by
  intro s a v
  refine ⟨fun outside => busTransaction_outside s outside v, fun inside => ?_⟩
  obtain ⟨-, -, readReplies, -⟩ := memRead_frame s a
  obtain ⟨-, writeReplies, -⟩ := sameAround_memWrite s a v
  rw [← readReplies]
  obtain ⟨read, write⟩ := busTransaction_inside s inside v
  refine ⟨read, ?_⟩
  rw [readReplies, ← writeReplies]
  exact write

/-! ### The window -/

/-- BASE is aligned to the size of the window (20_memory.md R60). -/
theorem BASE_aligned : Config.BASE % 0x100 = 0 := Nat.mul_mod_right 0x100 Config.basePage

/-- A transaction at BASE + off is the one at off (20_memory.md R60). -/
theorem busCycle_atAddress (s : State) (a : Access) (v : Word) :
    s.busCycle (.read (atAddress a)) = s.busTransaction (.read a) ∧
      s.busCycle (.write (atAddress a) v) = s.busTransaction (.write a v) := by
  simp [State.busCycle]

/-- The core does not see a transaction at an address below or above its window (20_memory.md R69). -/
theorem busCycle_outside (s : State) {b : BusAccess} (outside : b.addr < Config.BASE ∨ Config.BASE + 0x100 ≤ b.addr)
    (v : Word) : s.busCycle (.read b) = s ∧ s.busCycle (.write b v) = s := by
  cases seen : atOffset b with
  | none => simp [State.busCycle, seen]
  | some a =>
    obtain rfl := (atOffset_eq_some_iff b a).mp seen
    have above : 0x100 ≤ a.off := by
      simp only [atAddress] at outside
      omega
    obtain ⟨read, write⟩ := busCycle_atAddress s a v
    rw [read, write]
    exact busTransaction_outside s above v

/-- Settles O57: an address of the window is BASE plus an offset, and BASE is a multiple of 256. -/
theorem windowSitsAtBase : Obligations.WindowSitsAtBase := by
  refine ⟨BASE_aligned, fun s b v => ⟨fun outside => busCycle_outside s outside v, fun above below => ?inside,
    fun r => busCycle_atAddress s (wordAccess r) v⟩⟩
  case inside =>
    obtain ⟨addr, bytes, lanes⟩ := b
    obtain ⟨off, rfl⟩ := Nat.exists_eq_add_of_le above
    have aligned := BASE_aligned
    exact ⟨⟨off, bytes, lanes⟩, Nat.lt_of_add_lt_add_left below, rfl, rfl, rfl, by dsimp only; omega,
      busCycle_atAddress s ⟨off, bytes, lanes⟩ v⟩

/-! ### The statements of the host assembly -/

/-- A branch goes to the label's line or to the next one (30_encoding.md R100). -/
theorem branch_eq (h : HostAgent) (taken : Bool) (label : Nat) :
    h.branch taken label = { h with line := if taken then labelLine h.program label else h.line + 1 } := by
  cases taken <;> rfl

/-- Settles O58: the statements unfold to their transactions, and the host's turn is the one at its line. -/
theorem hostStatementsDoTheirTransaction : Obligations.HostStatementsDoTheirTransaction := by
  intro s canonical
  refine ⟨fun r v => rfl, fun r n => ⟨_, rfl, tempSet_canonical canonical n _, ?readBack, fun m other => ?others⟩,
    fun n mask value label => ?beq, fun n mask value label => ?bne, rfl, fun line => hostTurn_of_line, hostTurn_of_ended⟩
  case readBack => rw [tempGet_tempSet canonical, if_pos rfl]
  case others => rw [tempGet_tempSet canonical, if_neg other]
  case beq => rw [State.hostStatement, branch_eq]; simp
  case bne => rw [State.hostStatement, branch_eq]; simp

end Sys2Proof.Machine
end
